-- ==== Sys2Proof/Word.lean ====
section
/-! DEFINITION. Words, addresses and fixed-length tables of the HSB-412 (section 0.5, section 0.6). -/

namespace Sys2Proof

/-- One byte of a frame or of an encoded record. -/
abbrev Byte := BitVec 8

/-- A two-byte field, most significant byte first on the line (R140). -/
abbrev Word16 := BitVec 16

/-- Hatch `n` of the manual (1 to 12) is `n - 1` here. -/
abbrev Hatch := Fin 12

/-- The console of node address `48 + c` (Table 0-3). -/
abbrev Console := Fin 12

/-- The field node of address `n + 1` (addresses 1 to 47, Table 0-3). -/
abbrev Node := Fin 47

/-- An output channel of a field node. -/
abbrev Chan := Fin 8

/-- A signal id of the SIGNAL table (R17). -/
abbrev SignalId := Fin 256

/-- A condition id (R38). -/
abbrev CondId := Fin 128

/-- A condition set id (R44). -/
abbrev SetId := Fin 64

/-- An actuator id (R9). -/
abbrev ActId := Fin 96

/-- A step number within a sequence (R53). -/
abbrev StepNo := Fin 24

/-- A profile number (R6). -/
abbrev Profile := Fin 4

/-- A fixed number of like things. -/
abbrev Tab (α : Type) (n : Nat) := Vector α n

/-- The entry at index `i`. -/
def Tab.read {α : Type} {n : Nat} (t : Tab α n) (i : Fin n) : α := t[i]

/-- The table with the entry at `i` replaced. -/
def Tab.put {α : Type} {n : Nat} (t : Tab α n) (i : Fin n) (x : α) : Tab α n :=
  Vector.set t i.val x i.isLt

/-- The entries of a list that stands at index `k` onward, each with its index. -/
def indexedFrom {α : Type} {n : Nat} : (l : List α) → (k : Nat) → k + l.length = n → List (Fin n × α)
  | [], _, _ => []
  | a :: l, k, h =>
    (⟨k, by simp only [List.length_cons] at h; omega⟩, a) ::
      indexedFrom l (k + 1) (by simp only [List.length_cons] at h; omega)

/-- Every entry of a table with its index, in ascending index. -/
def Tab.entries {α : Type} {n : Nat} (t : Tab α n) : List (Fin n × α) :=
  indexedFrom t.toList 0 (by simp)

theorem indexedFrom_length {α : Type} {n : Nat} (l : List α) (k : Nat) (h : k + l.length = n) :
    (indexedFrom l k h).length = l.length := by
  induction l generalizing k with
  | nil => rfl
  | cons a l ih => simp [indexedFrom, ih]

/-- The table whose entry at `i` is `f` of `i` and of the old entry. -/
def Tab.mapIdx {α β : Type} {n : Nat} (f : Fin n → α → β) (t : Tab α n) : Tab β n :=
  ⟨⟨t.entries.map fun p => f p.1 p.2⟩, by simp [Tab.entries, indexedFrom_length]⟩

/-- The table with `f` applied to every entry. -/
def Tab.mapAll {α β : Type} {n : Nat} (f : α → β) (t : Tab α n) : Tab β n :=
  ⟨⟨t.toList.map f⟩, by simp⟩

/-- The table with the same entry everywhere. -/
def Tab.fill {α : Type} (n : Nat) (x : α) : Tab α n := ⟨⟨List.replicate n x⟩, by simp⟩

/-- The least `n` values `0, 1, …` as indices, ascending. -/
def ascending (n : Nat) : List (Fin n) := indexedFrom (List.replicate n ()) 0 (by simp) |>.map (·.1)

/-- Every hatch, in ascending hatch number. -/
def allHatches : List Hatch := ascending 12

/-- Every node, in ascending address. -/
def allNodes : List Node := ascending 47

/-- Every output channel of a node, in channel order. -/
def allChans : List Chan := ascending 8

/-- The lower six bits of an address byte (R128). -/
def addrOf (b : Byte) : Nat := (b &&& 0x3F#8).toNat

/-- The address byte of a console. -/
def Console.addr (c : Console) : Byte := BitVec.ofNat 8 (48 + c.val)

/-- The console of an address, when it is one (48 to 59). -/
def consoleAt (a : Nat) : Option Console :=
  if h : 48 ≤ a ∧ a < 60 then some ⟨a - 48, by omega⟩ else none

/-- The address byte of a field node. -/
def Node.addr (n : Node) : Byte := BitVec.ofNat 8 (n.val + 1)

/-- The field node of an address, when it is one (1 to 47). -/
def nodeAt (a : Nat) : Option Node :=
  if h : 1 ≤ a ∧ a < 48 then some ⟨a - 1, by omega⟩ else none

/-- The hatch of a hatch number, when it is one (1 to 12). -/
def hatchAt (a : Nat) : Option Hatch :=
  if h : 1 ≤ a ∧ a < 13 then some ⟨a - 1, by omega⟩ else none

/-- The hatch number the manual gives a hatch. -/
def Hatch.number (h : Hatch) : Nat := h.val + 1

/-- `x` as an index below `n`, when it is one. -/
def below (n x : Nat) : Option (Fin n) := if h : x < n then some ⟨x, h⟩ else none

end Sys2Proof
end

