-- ==== Sys2Proof/Syntax.lean ====
section
/-! DEFINITION. The commands of the HSB-412: one constructor for each row of spec/opcode_table.json, with what its
event brings from outside the part. -/

namespace Sys2Proof

/-- What a receiver takes between two line idles (R127): the bytes, and whether a character had its stop bit low. -/
structure Run where
  bytes : List Byte
  framingError : Bool
  deriving DecidableEq, Repr

/-- One command for each row of the table of operations and events. -/
inductive Instr where
  /-- POWER_UP: supply comes up with the straps ADDR1:ADDR0 at this level (R179, R129). -/
  | powerUp (straps : Fin 4)
  /-- RESET_N: the pin resets the part (R179). -/
  | resetN (straps : Fin 4)
  /-- RESET_DEVICE_TAKEN: the reset of an accepted RESET_DEVICE (R170). -/
  | resetDeviceTaken (straps : Fin 4)
  /-- C_FRAME_ARRIVES: a frame that is not urgent arrives on the C-port (R132). -/
  | cFrameArrives (run : Run)
  /-- STOP: an urgent STOP frame arrives (R69, R131). -/
  | stop (run : Run)
  /-- HOLD: an urgent HOLD frame arrives (R165, R131). -/
  | hold (run : Run)
  /-- KEEP: an urgent KEEP frame arrives (R166, R131). -/
  | keep (run : Run)
  /-- QUEUE_HEAD_REJECT: the C receive queue head is discarded with a REJECT (R134). -/
  | queueHeadReject
  /-- READ_ITEM at the queue head (R162). -/
  | readItem
  /-- WRITE_ITEM at the queue head (R163). -/
  | writeItem
  /-- CLEAR_FLAGS at the queue head (R164). -/
  | clearFlags
  /-- ACKNOWLEDGE with scope 0 at the queue head (R88). -/
  | acknowledgeHatches
  /-- ACKNOWLEDGE naming the device at the queue head (R169). -/
  | acknowledgeDevice
  /-- ENTER_CONFIG at the queue head (R173). -/
  | enterConfig
  /-- LOAD_RECORD at the queue head (R174). -/
  | loadRecord
  /-- READ_RECORD at the queue head (R174). -/
  | readRecord
  /-- LEAVE_CONFIG at the queue head (R176). -/
  | leaveConfig
  /-- RESET_DEVICE at the queue head (R170). -/
  | resetDevice
  /-- OPERATE OPEN at the queue head (R68). -/
  | openHatches
  /-- OPERATE CLOSE at the queue head (R68). -/
  | closeHatches
  /-- OPERATE PAUSE at the queue head (R79). -/
  | pause
  /-- OPERATE RESUME at the queue head (R80). -/
  | resume
  /-- OPERATE MANUAL_ENTER at the queue head (R89). -/
  | manualEnter
  /-- OPERATE MANUAL_LEAVE at the queue head (R91). -/
  | manualLeave
  /-- FIELD_REQ_JUDGE: a console FIELD_REQ at the queue head is judged (R156). -/
  | fieldReqJudge
  /-- TRANSMIT_START: the C-port transmitter begins the head frame (R137). -/
  | transmitStart
  /-- TRANSMIT_END: the last byte of that frame has been sent (R137). -/
  | transmitEnd
  /-- NEUTRAL_SEND: the arbiter sends NEUTRAL (R153). -/
  | neutralSend
  /-- PART_WRITE_BEGIN: the arbiter begins a part WRITE_OUTPUTS (R146). -/
  | partWriteBegin
  /-- ALERT_READ_BEGIN: the arbiter begins a follow-up READ_STATUS (R151). -/
  | alertReadBegin
  /-- FORWARD_BEGIN: the arbiter begins a forwarded console request (R144). -/
  | forwardBegin
  /-- SCAN_POLL_BEGIN: the arbiter begins a scan poll (R145). -/
  | scanPollBegin
  /-- REQUEST_SENT: the last byte of an F-line request has been sent (R142). -/
  | requestSent
  /-- INPUTS_REPLY: the outstanding READ_INPUTS is answered (R20). -/
  | inputsReply (run : Run)
  /-- OUTPUTS_REPLY: the outstanding WRITE_OUTPUTS is answered (R150). -/
  | outputsReply (run : Run)
  /-- STATUS_REPLY: the outstanding READ_STATUS is answered (R151). -/
  | statusReply (run : Run)
  /-- F_FRAME_DISCARD: a frame on the F-line that is not the outstanding reply (R143). -/
  | fFrameDiscard (run : Run)
  /-- REPLY_TIMEOUT: the reply timeout expires (R142). -/
  | replyTimeout
  /-- SCAN_TIMER_EXPIRY of one node (R145). -/
  | scanTimerExpiry (node : Node)
  /-- REFRESH_TIMER_EXPIRY of one node (R147). -/
  | refreshTimerExpiry (node : Node)
  /-- SIGNAL_AGE_EXPIRY of the signals whose ages run out at this event (R24, R35). -/
  | signalAgeExpiry (signals : List SignalId)
  /-- STEP_TIMEOUT of one hatch (R74). -/
  | stepTimeout (hatch : Hatch)
  /-- SETTLE_EXPIRY of one hatch (R75). -/
  | settleExpiry (hatch : Hatch)
  /-- RAMP_TICK (R119). -/
  | rampTick
  /-- HOLD_WINDOW_EXPIRY of one hatch (R165). -/
  | holdWindowExpiry (hatch : Hatch)
  /-- LINK_WINDOW_EXPIRY (R166). -/
  | linkWindowExpiry
  /-- ESTOP_IN_CHANGE: the pin takes this level, active or inactive (R167). -/
  | estopInChange (active : Bool)
  /-- ESTOP_DEBOUNCE_ACTIVE: 5 ms active without a break (R167). -/
  | estopDebounceActive
  /-- ESTOP_DEBOUNCE_RELEASED: 50 ms inactive without a break (R167). -/
  | estopDebounceReleased
  /-- STORE_COMPLETE: the store reports the write done or failed (R178). -/
  | storeComplete (done : Bool)
  /-- STORE_WRITE_TIMEOUT: 400 ms have passed (R178). -/
  | storeWriteTimeout
  deriving DecidableEq, Repr

end Sys2Proof
end

