-- ==== Sys2Proof/Machine/Names.lean ====
section
/-! DEFINITION. The named values of the manual, each with its code of Table 8-11 where it has one. -/

namespace Sys2Proof.Machine

/-- The operation of a sequence (Table 8-11). -/
inductive Op | opening | closing
  deriving DecidableEq, Repr

/-- The opposite operation. -/
def Op.opposite : Op → Op
  | .opening => .closing
  | .closing => .opening

/-- Table 8-11: OPEN 0, CLOSE 1. -/
def Op.code : Op → Nat
  | .opening => 0
  | .closing => 1

/-- The six sequencer states (Table 5-2). -/
inductive SeqState | idle | running | held | stopping | tripped | manual
  deriving DecidableEq, Repr

/-- Table 8-11. -/
def SeqState.code : SeqState → Nat
  | .idle => 0 | .running => 1 | .held => 2 | .stopping => 3 | .tripped => 4 | .manual => 5

/-- The phases of RUNNING (Table 5-1). -/
inductive Phase | flowWait | acting | settling
  deriving DecidableEq, Repr

/-- Table 8-11. -/
def Phase.code : Phase → Nat
  | .flowWait => 0 | .acting => 1 | .settling => 2

/-- The rest states (Table 1-8). -/
inductive RestState | unknown | closedSecured | closedUnsecured | opened | intermediate
  deriving DecidableEq, Repr

/-- Table 8-11. -/
def RestState.code : RestState → Nat
  | .unknown => 0 | .closedSecured => 1 | .closedUnsecured => 2 | .opened => 3 | .intermediate => 4

/-- The hold causes (Table 5-4). -/
inductive HoldCause | condition | holdLapse | pause | linkLapse | nodeFault
  deriving DecidableEq, Repr

/-- A set of hold causes. -/
structure HoldSet where
  condition : Bool := false
  holdLapse : Bool := false
  pause : Bool := false
  linkLapse : Bool := false
  nodeFault : Bool := false
  deriving DecidableEq, Repr

/-- The trip causes, in the order of Table 5-5. -/
inductive TripCause | tripCondition | stepTimeout | readback | nodeLost | localEstop | estopInput | linkLost
  deriving DecidableEq, Repr

/-- Table 8-11: Table 5-5 order, 0 to 6. -/
def TripCause.code : TripCause → Nat
  | .tripCondition => 0 | .stepTimeout => 1 | .readback => 2 | .nodeLost => 3
  | .localEstop => 4 | .estopInput => 5 | .linkLost => 6

/-- A set of trip causes. -/
structure TripSet where
  tripCondition : Bool := false
  stepTimeout : Bool := false
  readback : Bool := false
  nodeLost : Bool := false
  localEstop : Bool := false
  estopInput : Bool := false
  linkLost : Bool := false
  deriving DecidableEq, Repr

/-- How a hatch last resumed (R81). -/
inductive ResumeKind | auto | request
  deriving DecidableEq, Repr

/-- Table 8-11. -/
def ResumeKind.code : ResumeKind → Nat
  | .auto => 0 | .request => 1

/-- The results of operation requests (Table 5-3, Table 8-11). -/
inductive OpResult
  | accepted | resumed | queued | superseded | noChange | refusedTripped | refusedState | refusedOwner
  | refusedLink | refusedConfig | refusedMotion | refusedFlow | refusedCondition | badHatch
  deriving DecidableEq, Repr

/-- Table 8-11: 1 to 14. -/
def OpResult.code : OpResult → Nat
  | .accepted => 1 | .resumed => 2 | .queued => 3 | .superseded => 4 | .noChange => 5 | .refusedTripped => 6
  | .refusedState => 7 | .refusedOwner => 8 | .refusedLink => 9 | .refusedConfig => 10 | .refusedMotion => 11
  | .refusedFlow => 12 | .refusedCondition => 13 | .badHatch => 14

/-- The results of management requests (Table 8-11). -/
inductive MgmtResult
  | done | refusedBusy | refusedState | refusedCondition | badArgument | crcMismatch | tableInvalid
  deriving DecidableEq, Repr

/-- Table 8-11: 1 to 7. -/
def MgmtResult.code : MgmtResult → Nat
  | .done => 1 | .refusedBusy => 2 | .refusedState => 3 | .refusedCondition => 4 | .badArgument => 5
  | .crcMismatch => 6 | .tableInvalid => 7

/-- The eleven sticky flags (Table 11-2). -/
inductive Flag
  | cFrameErr | cOverrun | cTxOverrun | fFrameErr | nodeLost | alertSat | readbackMismatch | estopActive
  | tableCrc | storeFault | resetOccurred
  deriving DecidableEq, Repr

/-- The bit of a flag (Table 8-11). -/
def Flag.bit : Flag → Nat
  | .cFrameErr => 0 | .cOverrun => 1 | .cTxOverrun => 2 | .fFrameErr => 3 | .nodeLost => 4 | .alertSat => 5
  | .readbackMismatch => 6 | .estopActive => 7 | .tableCrc => 8 | .storeFault => 9 | .resetOccurred => 10

/-- The device modes (R172). -/
inductive Mode | noTables | config | storing | operate
  deriving DecidableEq, Repr

/-- Table 8-11. -/
def Mode.code : Mode → Nat
  | .noTables => 0 | .config => 1 | .storing => 2 | .operate => 3

/-- The node states (Table 9-2). -/
inductive NodeState | absent | unknown | present | lost
  deriving DecidableEq, Repr

/-- Table 8-11. -/
def NodeState.code : NodeState → Nat
  | .absent => 0 | .unknown => 1 | .present => 2 | .lost => 3

/-- The kinds of signal (R17). -/
inductive SignalKind | switch | count | value
  deriving DecidableEq, Repr

/-- Table 8-11. -/
def SignalKind.code : SignalKind → Nat
  | .switch => 0 | .count => 1 | .value => 2

/-- The kind of a code. -/
def SignalKind.ofCode : Nat → Option SignalKind
  | 0 => some .switch | 1 => some .count | 2 => some .value | _ => none

/-- The qualities of a signal (R19). -/
inductive Quality | fresh | stale | invalid
  deriving DecidableEq, Repr

/-- Table 8-11. -/
def Quality.code : Quality → Nat
  | .fresh => 0 | .stale => 1 | .invalid => 2

/-- The drive states (R113). -/
inductive DriveState | atRest | inMotion | stopping
  deriving DecidableEq, Repr

/-- Table 8-11. -/
def DriveState.code : DriveState → Nat
  | .atRest => 0 | .inMotion => 1 | .stopping => 2

/-- The directions of a drive (R1). -/
inductive Direction | outward | inward
  deriving DecidableEq, Repr

/-- Table 8-11: OUT 0, IN 1. -/
def Direction.code : Direction → Nat
  | .outward => 0 | .inward => 1

/-- The sides of an actuator (R1). -/
inductive Side | port | stbd
  deriving DecidableEq, Repr

/-- Table 8-11. -/
def Side.code : Side → Nat
  | .port => 0 | .stbd => 1

/-- The side of a code. -/
def Side.ofCode : Nat → Option Side
  | 0 => some .port | 1 => some .stbd | _ => none

/-- The kinds of an actuator, and of an output channel. -/
inductive ChanKind | binary | proportional
  deriving DecidableEq, Repr

/-- Table 8-11. -/
def ChanKind.code : ChanKind → Nat
  | .binary => 0 | .proportional => 1

/-- The kind of a code. -/
def ChanKind.ofCode : Nat → Option ChanKind
  | 0 => some .binary | 1 => some .proportional | _ => none

/-- The neutral of a channel kind (R146): 0, or the code 2048. -/
def ChanKind.neutral : ChanKind → Nat
  | .binary => 0 | .proportional => 2048

/-- The classes of an output channel (R155). -/
inductive ChanClass | free | guarded | owned
  deriving DecidableEq, Repr

/-- Table 8-11. -/
def ChanClass.code : ChanClass → Nat
  | .free => 0 | .guarded => 1 | .owned => 2

/-- The class of a code. -/
def ChanClass.ofCode : Nat → Option ChanClass
  | 0 => some .free | 1 => some .guarded | 2 => some .owned | _ => none

/-- The eight actuator roles, in the order of Table 1-2. -/
inductive ActRole | pJack | sJack | pDrive | sDrive | pCleat | sCleat | cCleat | aux
  deriving DecidableEq, Repr

/-- Table 8-11: Table 1-2 order, P_JACK 0 to AUX 7. -/
def ActRole.code : ActRole → Fin 8
  | .pJack => 0 | .sJack => 1 | .pDrive => 2 | .sDrive => 3 | .pCleat => 4 | .sCleat => 5 | .cCleat => 6 | .aux => 7

/-- Every actuator role, in the order of Table 1-2. -/
def ActRole.all : List ActRole := [.pJack, .sJack, .pDrive, .sDrive, .pCleat, .sCleat, .cCleat, .aux]

/-- The role of a code. -/
def ActRole.ofCode (n : Nat) : Option ActRole := ActRole.all[n]?

/-- The kind a role expects (Table 1-2). -/
def ActRole.kind : ActRole → ChanKind
  | .pDrive | .sDrive => .proportional
  | .pJack | .sJack | .pCleat | .sCleat | .cCleat | .aux => .binary

/-- The side a role demands of its actuator (R2): none for C_CLEAT and AUX. -/
def ActRole.side : ActRole → Option Side
  | .pJack | .pDrive | .pCleat => some .port
  | .sJack | .sDrive | .sCleat => some .stbd
  | .cCleat | .aux => none

/-- The twenty signal roles, in the order of Table 1-3. -/
inductive SigRole
  | pPos | sPos | pLifted | sLifted | pSeated | sSeated | pOpenEnd | sOpenEnd | pClosedEnd | sClosedEnd
  | pcEng | pcRel | scEng | scRel | ccEng | ccRel | localEstop | areaClear | auxA | auxB
  deriving DecidableEq, Repr

/-- Table 8-11: Table 1-3 order, P_POS 0 to AUX_B 19. -/
def SigRole.code : SigRole → Fin 20
  | .pPos => 0 | .sPos => 1 | .pLifted => 2 | .sLifted => 3 | .pSeated => 4 | .sSeated => 5 | .pOpenEnd => 6
  | .sOpenEnd => 7 | .pClosedEnd => 8 | .sClosedEnd => 9 | .pcEng => 10 | .pcRel => 11 | .scEng => 12 | .scRel => 13
  | .ccEng => 14 | .ccRel => 15 | .localEstop => 16 | .areaClear => 17 | .auxA => 18 | .auxB => 19

/-- Every signal role, in the order of Table 1-3. -/
def SigRole.all : List SigRole :=
  [.pPos, .sPos, .pLifted, .sLifted, .pSeated, .sSeated, .pOpenEnd, .sOpenEnd, .pClosedEnd, .sClosedEnd,
   .pcEng, .pcRel, .scEng, .scRel, .ccEng, .ccRel, .localEstop, .areaClear, .auxA, .auxB]

/-- The role of a code. -/
def SigRole.ofCode (n : Nat) : Option SigRole := SigRole.all[n]?

/-- The comparisons (Table 3-2). -/
inductive Comparison | eq | ne | ge | le | inside | outside
  deriving DecidableEq, Repr

/-- Table 8-11. -/
def Comparison.code : Comparison → Nat
  | .eq => 0 | .ne => 1 | .ge => 2 | .le => 3 | .inside => 4 | .outside => 5

/-- Every comparison, in the order of its code. -/
def Comparison.all : List Comparison := [.eq, .ne, .ge, .le, .inside, .outside]

/-- The comparison of a code. -/
def Comparison.ofCode (n : Nat) : Option Comparison := Comparison.all[n]?

/-- The C-port rates (Table 8-11). -/
inductive CRate | k57_6 | k115_2 | k230_4
  deriving DecidableEq, Repr

/-- Table 8-11. -/
def CRate.code : CRate → Nat
  | .k57_6 => 0 | .k115_2 => 1 | .k230_4 => 2

/-- The rate of a code. -/
def CRate.ofCode : Nat → Option CRate
  | 0 => some .k57_6 | 1 => some .k115_2 | 2 => some .k230_4 | _ => none

/-- The F-line rates (Table 8-11). -/
inductive FRate | k38_4 | k57_6 | k115_2 | k230_4
  deriving DecidableEq, Repr

/-- Table 8-11. -/
def FRate.code : FRate → Nat
  | .k38_4 => 0 | .k57_6 => 1 | .k115_2 => 2 | .k230_4 => 3

/-- The rate of a code. -/
def FRate.ofCode : Nat → Option FRate
  | 0 => some .k38_4 | 1 => some .k57_6 | 2 => some .k115_2 | 3 => some .k230_4 | _ => none

/-- The ten frame kinds (Table 8-1). -/
inductive Kind
  | fieldReq | fieldReply | mgmtReq | mgmtReply | operate | stop | hold | keep | notice | neutral
  deriving DecidableEq, Repr

/-- Table 8-1: 1 to 10. -/
def Kind.code : Kind → Nat
  | .fieldReq => 1 | .fieldReply => 2 | .mgmtReq => 3 | .mgmtReply => 4 | .operate => 5 | .stop => 6
  | .hold => 7 | .keep => 8 | .notice => 9 | .neutral => 10

/-- The kind of a code. -/
def Kind.ofCode : Nat → Option Kind
  | 1 => some .fieldReq | 2 => some .fieldReply | 3 => some .mgmtReq | 4 => some .mgmtReply | 5 => some .operate
  | 6 => some .stop | 7 => some .hold | 8 => some .keep | 9 => some .notice | 10 => some .neutral | _ => none

/-- The reasons of a REJECT notice (Table 8-9); the first four are the reasons of an invalid frame (R127). -/
inductive RejectReason
  | badLead | badKind | badLength | badCrc | badSource | badDestination | kindMismatch | noNode | badPayload
  deriving DecidableEq, Repr

/-- Table 8-9: 1 to 9. -/
def RejectReason.code : RejectReason → Nat
  | .badLead => 1 | .badKind => 2 | .badLength => 3 | .badCrc => 4 | .badSource => 5 | .badDestination => 6
  | .kindMismatch => 7 | .noNode => 8 | .badPayload => 9

/-- The reasons of a BLOCKED notice (Table 8-9, Table 10-2). -/
inductive BlockReason | owned | notManual | notOwner | holdLapsed | permitFailed | mode
  deriving DecidableEq, Repr

/-- Table 8-9: 1 to 6. -/
def BlockReason.code : BlockReason → Nat
  | .owned => 1 | .notManual => 2 | .notOwner => 3 | .holdLapsed => 4 | .permitFailed => 5 | .mode => 6

/-- The occasions of a HATCH_EVENT notice (Table 5-6). -/
inductive Occasion | completed | stopped | pendingStarted | pendingDiscarded | tripped
  deriving DecidableEq, Repr

/-- Table 8-9: 1 to 5. -/
def Occasion.code : Occasion → Nat
  | .completed => 1 | .stopped => 2 | .pendingStarted => 3 | .pendingDiscarded => 4 | .tripped => 5

end Sys2Proof.Machine
end

