-- ==== Sys2Proof/Machine/Frames.lean ====
section
/-! DEFINITION. Bytes on the lines: multi-byte fields, the CRC-16, the frame envelope and the test of a received run
(R127, R128, R140, section 0.5). -/

namespace Sys2Proof.Machine

/-- A number below 256 as a byte. -/
def byte (n : Nat) : Byte := BitVec.ofNat 8 n

/-- A two-byte field, most significant byte first (R140). -/
def be16 (w : Word16) : List Byte := [w.extractLsb' 8 8, w.extractLsb' 0 8]

/-- A number as a two-byte field. -/
def be16n (n : Nat) : List Byte := be16 (BitVec.ofNat 16 n)

/-- The two-byte field of two bytes (R140). -/
def word16 (hi lo : Byte) : Word16 := hi ++ lo

/-- The number of a two-byte field (R140). -/
def num16 (hi lo : Byte) : Nat := (word16 hi lo).toNat

/-- An optional one-byte field: 0xFF when absent (R140). -/
def optByte : Option Nat → Byte
  | none => 0xFF#8
  | some n => byte n

/-- A yes-or-no byte. -/
def boolByte (b : Bool) : Byte := if b then 1#8 else 0#8

/-- One bit of the CRC: generator x^16 + x^12 + x^5 + 1 (section 0.5). -/
def crcBit (c : Word16) : Word16 := if c.msb then (c <<< 1) ^^^ 0x1021#16 else c <<< 1

/-- `k` bits of the CRC. -/
def crcBits : Nat → Word16 → Word16
  | 0, c => c
  | k + 1, c => crcBits k (crcBit c)

/-- One byte of the CRC, most significant bit first. -/
def crcByte (c : Word16) (b : Byte) : Word16 := crcBits 8 (c ^^^ (b ++ 0#8))

/-- The CRC-16 of section 0.5: preset 0xFFFF, no reflection, no final inversion. -/
def crc16 (l : List Byte) : Word16 := l.foldl crcByte 0xFFFF#16

/-- A frame (Table 8-3) less its length byte and its CRC, which the rest gives. The address bytes are kept whole: their
upper two bits are ignored on receipt (R128) and a forwarded frame keeps them (R129). -/
structure Frame where
  kind : Kind
  dest : Byte
  src : Byte
  tag : Byte
  status : Byte
  payload : List Byte
  deriving DecidableEq, Repr

/-- The lead byte: the kind, and its complement in the lower nibble (Table 8-3). -/
def leadByte (k : Kind) : Byte := byte (k.code * 16 + (15 - k.code))

/-- The bytes of a frame before its CRC. -/
def Frame.body (f : Frame) : List Byte :=
  leadByte f.kind :: f.dest :: f.src :: f.tag :: f.status :: byte f.payload.length :: f.payload

/-- The bytes of a frame (Table 8-3). -/
def Frame.encode (f : Frame) : List Byte := f.body ++ be16 (crc16 f.body)

/-- The destination address of a frame (R128). -/
def Frame.destAddr (f : Frame) : Nat := addrOf f.dest

/-- The source address of a frame (R128). -/
def Frame.srcAddr (f : Frame) : Nat := addrOf f.src

/-- The first test of R127: the nibbles of the lead byte are complementary. -/
def leadOk (b : Byte) : Bool := b.extractLsb' 4 4 == ~~~ (b.extractLsb' 0 4)

/-- The kind a lead byte names (second test of R127). -/
def leadKind (b : Byte) : Option Kind := Kind.ofCode (b.extractLsb' 4 4).toNat

/-- What a receiver makes of a run of bytes (R127). -/
inductive Received
  | valid (f : Frame)
  | invalid (reason : RejectReason)
  deriving DecidableEq, Repr

/-- The tests of length and CRC, for a run whose lead byte names the kind `k` (R127). A run too short to hold the
length byte fails its length. -/
def checkBody (k : Kind) (lead : Byte) (rest : List Byte) (framing : Bool) : Received :=
  match rest with
  | dest :: src :: tag :: status :: n :: more =>
    if n.toNat ≤ 48 ∧ more.length = n.toNat + 2 then
      if !framing && more.drop n.toNat ==
          be16 (crc16 (lead :: dest :: src :: tag :: status :: n :: more.take n.toNat)) then
        .valid { kind := k, dest := dest, src := src, tag := tag, status := status, payload := more.take n.toNat }
      else .invalid .badCrc
    else .invalid .badLength
  | _ => .invalid .badLength

/-- The test of a received run (R127): the reason is the first that applies. -/
def checkRun (r : Run) : Received :=
  match r.bytes with
  | [] => .invalid .badLength
  | lead :: rest =>
    if leadOk lead then
      match leadKind lead with
      | some k => checkBody k lead rest r.framingError
      | none => .invalid .badKind
    else .invalid .badLead

/-- What an intact header yields (R128). -/
structure Header where
  kind : Kind
  dest : Byte
  src : Byte
  tag : Byte
  deriving DecidableEq, Repr

/-- The header of a run, when it is intact: the lead byte passes its two tests and at least 6 bytes came (R128). -/
def headerOf (bytes : List Byte) : Option Header :=
  match bytes with
  | lead :: dest :: src :: tag :: _ :: _ :: _ =>
    if leadOk lead then (leadKind lead).map fun k => { kind := k, dest := dest, src := src, tag := tag } else none
  | _ => none

/-- The valid frame of a run, if the run is one. -/
def validFrame (r : Run) : Option Frame :=
  match checkRun r with
  | .valid f => some f
  | .invalid _ => none

end Sys2Proof.Machine
end

