-- ==== Sys2Proof/Machine/Tables.lean ====
section
/-! DEFINITION. The nine tables (R171): their records as the manual's field tables give them, and the cleared values. -/

namespace Sys2Proof.Machine

/-- The GLOBAL record (Table 12-2). -/
structure GlobalRec where
  reserve : Nat := 40
  rampTick : Nat := 20
  holdWindow : Nat := 300
  linkWindow : Nat := 2000
  replyTimeout : Nat := 5
  scanPeriod : Nat := 100
  outputRefresh : Nat := 200
  readbackEnable : Bool := true
  readbackTolerance : Nat := 8
  heelSoft : Nat := 300
  heelSignal : Option SignalId := none
  cRate : CRate := .k115_2
  fRate : FRate := .k115_2
  deriving DecidableEq, Repr

/-- The PUMP record (Table 2-4). -/
structure PumpRec where
  running : Option SignalId := none
  rated : Nat := 0
  deriving DecidableEq, Repr

/-- The five fields of one output channel of a NODE record (Table 10-1). -/
structure ChanRec where
  cls : ChanClass := .free
  kind : ChanKind := .binary
  hatch : Hatch := 0
  permit : SetId := 0
  span : Nat := 0
  deriving DecidableEq, Repr

/-- The NODE record (Table 10-1). -/
structure NodeRec where
  inMap : Bool := false
  poll : Bool := false
  chans : Tab ChanRec 8 := Tab.fill 8 {}
  deriving DecidableEq, Repr

/-- The SIGNAL record (Table 2-1). -/
structure SignalRec where
  node : Option Node := none
  channel : Fin 16 := 0
  kind : SignalKind := .switch
  debounce : Nat := 1
  maxAge : Nat := 1000
  deriving DecidableEq, Repr

/-- The reference of a condition (R40). -/
inductive CondRef
  | direct (s : SignalId)
  | role (r : SigRole)
  deriving DecidableEq, Repr

/-- The CONDITION record (Table 3-1). -/
structure CondRec where
  ref : CondRef := .direct 0
  cmp : Comparison := .eq
  abs : Bool := false
  low : Int := 0
  high : Int := 0
  deriving DecidableEq, Repr

/-- The fields of a BINARY actuator (Table 1-6). -/
structure BinaryFields where
  demand : Nat := 1
  groupSize : Nat := 1
  deriving DecidableEq, Repr

/-- The fields of a PROPORTIONAL actuator (Table 1-7). -/
structure PropFields where
  minFlow : Nat := 1
  maxFlow : Nat := 1
  upStep : Nat := 1
  downStep : Nat := 1
  creepDistance : Nat := 0
  creepFlow : Nat := 1
  gain : Nat := 0
  deadband : Nat := 0
  maxSpan : Nat := 1
  posRole : SigRole := .pPos
  outEndRole : SigRole := .pOpenEnd
  inEndRole : SigRole := .pClosedEnd
  deriving DecidableEq, Repr

/-- The kind of an actuator, with the fields of that kind. -/
inductive ActKind
  | binary (f : BinaryFields)
  | proportional (f : PropFields)
  deriving DecidableEq, Repr

/-- The ACTUATOR record (Table 1-5). -/
structure ActRec where
  kind : ActKind := .binary {}
  node : Node := 0
  channel : Chan := 0
  side : Side := .port
  deriving DecidableEq, Repr

/-- The HATCH record (Table 1-4). -/
structure HatchRec where
  enabled : Bool := false
  profile : Profile := 0
  acts : Tab (Option ActId) 8 := Tab.fill 8 none
  sigs : Tab (Option SignalId) 20 := Tab.fill 20 none
  resume : HoldSet := { condition := true, holdLapse := true }
  reservation : Nat := 0
  deriving DecidableEq, Repr

/-- The command of an action (R55). -/
inductive Command
  | sideA
  | sideB
  | outTo (speed stopPosition : Nat)
  | inTo (speed stopPosition : Nat)
  deriving DecidableEq, Repr

/-- An action of a step (R55). -/
structure Action where
  role : ActRole
  command : Command
  deriving DecidableEq, Repr

/-- The STEP record (Table 4-1); the timeout is in 100 ms units. -/
structure StepRec where
  actions : Tab (Option Action) 4 := Tab.fill 4 none
  startSet : SetId := 0
  holdSet : SetId := 0
  tripSet : SetId := 0
  doneSet : SetId := 0
  settle : Nat := 0
  timeout : Nat := 1
  attended : Bool := false
  last : Bool := false
  reentry : Option StepNo := none
  reverse : Option StepNo := none
  deriving DecidableEq, Repr

/-- A table image (R171). The CONDSET record is its list of condition ids (R44). -/
structure TableImage where
  global : GlobalRec := {}
  pump : Tab PumpRec 4 := Tab.fill 4 {}
  node : Tab NodeRec 47 := Tab.fill 47 {}
  signal : Tab SignalRec 256 := Tab.fill 256 {}
  condition : Tab CondRec 128 := Tab.fill 128 {}
  condset : Tab (List CondId) 64 := Tab.fill 64 []
  actuator : Tab ActRec 96 := Tab.fill 96 {}
  hatch : Tab HatchRec 12 := Tab.fill 12 {}
  step : Tab StepRec 192 := Tab.fill 192 {}
  deriving DecidableEq, Repr

/-- The empty tables: every record at its cleared value (R171). -/
def TableImage.empty : TableImage := {}

/-- The index of the record of step `n` of operation `o` of profile `p` (R53). -/
def stepIndex (p : Profile) (o : Op) (n : StepNo) : Fin 192 :=
  ⟨p.val * 48 + o.code * 24 + n.val, by cases o <;> simp only [Op.code] <;> omega⟩

/-- The record of step `n` of operation `o` of profile `p` (R53). -/
def TableImage.stepOf (im : TableImage) (p : Profile) (o : Op) (n : StepNo) : StepRec :=
  im.step.read (stepIndex p o n)

/-- The conditions of a set: set 0 is empty in every image (R46). -/
def TableImage.setOf (im : TableImage) (i : SetId) : List CondId :=
  if i = 0 then [] else im.condset.read i

/-- The signal a role is bound to in a hatch (R6). -/
def HatchRec.signalOf (r : HatchRec) (x : SigRole) : Option SignalId := r.sigs.read x.code

/-- The actuator a role is bound to in a hatch (R6). -/
def HatchRec.actuatorOf (r : HatchRec) (x : ActRole) : Option ActId := r.acts.read x.code

/-- The occupied action slots of a step; the order has no effect (R55). -/
def StepRec.actionList (r : StepRec) : List Action := r.actions.toList.filterMap id

/-- The channel record of a node (Table 10-1). -/
def TableImage.chan (im : TableImage) (n : Node) (c : Chan) : ChanRec := (im.node.read n).chans.read c

/-- The neutral value of a channel, by its kind (R146). -/
def TableImage.neutralOf (im : TableImage) (n : Node) (c : Chan) : Nat := (im.chan n c).kind.neutral

/-- The neutral value of every channel of a node (R146). -/
def NodeRec.neutrals (r : NodeRec) : Tab Nat 8 := r.chans.mapAll fun c => c.kind.neutral

/-- The link window timer started afresh: not started when the field is 0 (R166). -/
def linkTimer (g : GlobalRec) : Option Nat := if g.linkWindow = 0 then none else some g.linkWindow

end Sys2Proof.Machine
end

