-- ==== Sys2Proof/Machine/Codec.lean ====
section
/-! DEFINITION. The encodings of the table records (Table 8-12), the ranges of their fields, and the image CRC (R176). -/

namespace Sys2Proof.Machine

/-- `lo ≤ n ≤ hi`, as a test. -/
def within (lo hi n : Nat) : Bool := decide (lo ≤ n) && decide (n ≤ hi)

/-- A yes-or-no byte read: 0 or 1. -/
def decodeBool (b : Byte) : Option Bool :=
  if b = 0#8 then some false else if b = 1#8 then some true else none

/-- An optional signal id: 0xFFFF when absent (R140). -/
def decodeOptSignal (hi lo : Byte) : Option (Option SignalId) :=
  if num16 hi lo = 0xFFFF then some none else (below 256 (num16 hi lo)).map some

/-- An optional signal id written (R140). -/
def encodeOptSignal : Option SignalId → List Byte
  | none => be16n 0xFFFF
  | some s => be16n s.val

/-- An optional one-byte field below `n`: 0xFF when absent (R140). -/
def decodeOptByte (n : Nat) (b : Byte) : Option (Option (Fin n)) :=
  if b = 0xFF#8 then some none else (below n b.toNat).map some

/-- A table of exactly `n` entries from a list. -/
def tabOfList {α : Type} (n : Nat) (l : List α) : Option (Tab α n) :=
  if h : l.length = n then some ⟨⟨l⟩, by simpa using h⟩ else none

/-- `count` pieces of `width` bytes each, and nothing more, each read by `f`. -/
def decodeMany {α : Type} (f : List Byte → Option α) (width : Nat) : Nat → List Byte → Option (List α)
  | 0, [] => some []
  | 0, _ :: _ => none
  | k + 1, l => do
    let a ← f (l.take width)
    let r ← decodeMany f width k (l.drop width)
    some (a :: r)

/-! ### GLOBAL -/

/-- The ranges and steps of Table 12-2 (R175). -/
def GlobalRec.inRange (r : GlobalRec) : Bool :=
  within 0 1023 r.reserve && (within 10 100 r.rampTick && r.rampTick % 10 == 0) &&
  (within 100 1000 r.holdWindow && r.holdWindow % 50 == 0) &&
  (r.linkWindow == 0 || (within 500 10000 r.linkWindow && r.linkWindow % 100 == 0)) &&
  within 2 20 r.replyTimeout && within 20 1000 r.scanPeriod && within 100 1000 r.outputRefresh &&
  within 0 63 r.readbackTolerance && within 0 1500 r.heelSoft

/-- Table 8-12, table 1. -/
def encodeGlobal (r : GlobalRec) : List Byte :=
  be16n r.reserve ++ [byte r.rampTick] ++ be16n r.holdWindow ++ be16n r.linkWindow ++ [byte r.replyTimeout] ++
  be16n r.scanPeriod ++ be16n r.outputRefresh ++ [boolByte r.readbackEnable, byte r.readbackTolerance] ++
  be16n r.heelSoft ++ encodeOptSignal r.heelSignal ++ [byte r.cRate.code, byte r.fRate.code]

/-- Table 8-12, table 1, with the ranges of R175. -/
def decodeGlobal : List Byte → Option GlobalRec
  | [r1, r0, rt, hw1, hw0, lw1, lw0, rto, sp1, sp0, or1, or0, re, rb, hs1, hs0, sg1, sg0, cr, fr] => do
    let enable ← decodeBool re
    let heel ← decodeOptSignal sg1 sg0
    let c ← CRate.ofCode cr.toNat
    let f ← FRate.ofCode fr.toNat
    let g : GlobalRec :=
      { reserve := num16 r1 r0, rampTick := rt.toNat, holdWindow := num16 hw1 hw0, linkWindow := num16 lw1 lw0,
        replyTimeout := rto.toNat, scanPeriod := num16 sp1 sp0, outputRefresh := num16 or1 or0,
        readbackEnable := enable, readbackTolerance := rb.toNat, heelSoft := num16 hs1 hs0, heelSignal := heel,
        cRate := c, fRate := f }
    if g.inRange then some g else none
  | _ => none

/-! ### PUMP -/

/-- The ranges of Table 2-4. -/
def PumpRec.inRange (r : PumpRec) : Bool := within 0 1023 r.rated

/-- Table 8-12, table 2. -/
def encodePump (r : PumpRec) : List Byte := encodeOptSignal r.running ++ be16n r.rated

/-- Table 8-12, table 2. -/
def decodePump : List Byte → Option PumpRec
  | [s1, s0, f1, f0] => do
    let s ← decodeOptSignal s1 s0
    let r : PumpRec := { running := s, rated := num16 f1 f0 }
    if r.inRange then some r else none
  | _ => none

/-! ### NODE -/

/-- The ranges of Table 10-1 for one channel. -/
def ChanRec.inRange (r : ChanRec) : Bool := within 0 2047 r.span

/-- The five bytes of one channel (Table 8-12, table 3): class in bits 3 to 0, kind in bits 7 to 4. -/
def encodeChan (r : ChanRec) : List Byte :=
  [byte (r.kind.code * 16 + r.cls.code), byte (r.hatch.val + 1), byte r.permit.val] ++ be16n r.span

/-- The five bytes of one channel read. -/
def decodeChan : List Byte → Option ChanRec
  | [ck, h, p, s1, s0] => do
    let cls ← ChanClass.ofCode (ck.extractLsb' 0 4).toNat
    let kind ← ChanKind.ofCode (ck.extractLsb' 4 4).toNat
    let hatch ← hatchAt h.toNat
    let permit ← below 64 p.toNat
    let r : ChanRec := { cls := cls, kind := kind, hatch := hatch, permit := permit, span := num16 s1 s0 }
    if r.inRange then some r else none
  | _ => none

/-- The ranges of Table 10-1. -/
def NodeRec.inRange (r : NodeRec) : Bool := r.chans.toList.all ChanRec.inRange

/-- Table 8-12, table 3. -/
def encodeNode (r : NodeRec) : List Byte :=
  boolByte r.inMap :: boolByte r.poll :: r.chans.toList.flatMap encodeChan

/-- Table 8-12, table 3. -/
def decodeNode : List Byte → Option NodeRec
  | m :: p :: rest => do
    let inMap ← decodeBool m
    let poll ← decodeBool p
    let chans ← decodeMany decodeChan 5 8 rest
    let t ← tabOfList 8 chans
    some { inMap := inMap, poll := poll, chans := t }
  | _ => none

/-! ### SIGNAL -/

/-- The ranges of Table 2-1. -/
def SignalRec.inRange (r : SignalRec) : Bool := within 1 8 r.debounce && within 10 5000 r.maxAge

/-- The node byte of a SIGNAL record: 0 when absent (R140). -/
def encodeSignalNode : Option Node → Byte
  | none => 0#8
  | some n => Node.addr n

/-- Table 8-12, table 4. -/
def encodeSignal (r : SignalRec) : List Byte :=
  [encodeSignalNode r.node, byte r.channel.val, byte r.kind.code, byte r.debounce] ++ be16n r.maxAge

/-- The node byte of a SIGNAL record read. -/
def decodeSignalNode (b : Byte) : Option (Option Node) :=
  if b = 0#8 then some none else (nodeAt b.toNat).map some

/-- Table 8-12, table 4. -/
def decodeSignal : List Byte → Option SignalRec
  | [n, c, k, d, a1, a0] => do
    let node ← decodeSignalNode n
    let channel ← below 16 c.toNat
    let kind ← SignalKind.ofCode k.toNat
    let r : SignalRec := { node := node, channel := channel, kind := kind, debounce := d.toNat, maxAge := num16 a1 a0 }
    if r.inRange then some r else none
  | _ => none

/-! ### CONDITION -/

/-- The ranges of Table 3-1: low and high are signed 16-bit. -/
def CondRec.inRange (r : CondRec) : Bool :=
  decide (-32768 ≤ r.low) && decide (r.low ≤ 32767) && decide (-32768 ≤ r.high) && decide (r.high ≤ 32767)

/-- The kind and the reference byte of a condition (Table 8-12, table 5). -/
def encodeRef : CondRef → List Byte
  | .direct s => [0#8, byte s.val]
  | .role r => [1#8, byte r.code.val]

/-- The kind and the reference byte read. A reference above 19 of kind ROLE names none of the twenty roles of Table 3-1 and
is refused at LOAD_RECORD, though R174 leaves a range that depends on another field to the validation, and Table 12-3 has
no check of it: DESIGN CHOICE (log entry 50). -/
def decodeRef (k r : Byte) : Option CondRef :=
  if k = 0#8 then (below 256 r.toNat).map .direct
  else if k = 1#8 then (SigRole.ofCode r.toNat).map .role
  else none

/-- Table 8-12, table 5. -/
def encodeCondition (r : CondRec) : List Byte :=
  encodeRef r.ref ++ [byte r.cmp.code, boolByte r.abs] ++ be16 (BitVec.ofInt 16 r.low) ++ be16 (BitVec.ofInt 16 r.high)

/-- Table 8-12, table 5. -/
def decodeCondition : List Byte → Option CondRec
  | [k, r, c, a, l1, l0, h1, h0] => do
    let ref ← decodeRef k r
    let cmp ← Comparison.ofCode c.toNat
    let abs ← decodeBool a
    some { ref := ref, cmp := cmp, abs := abs, low := (word16 l1 l0).toInt, high := (word16 h1 h0).toInt }
  | _ => none

/-! ### CONDSET -/

/-- A set names 0 to 6 conditions (Table 3-3). -/
def condSetInRange (l : List CondId) : Bool := decide (l.length ≤ 6)

/-- Table 8-12, table 6: the unused id bytes are sent as 0 (R140). -/
def encodeCondSet (l : List CondId) : List Byte :=
  byte l.length :: ((l.map fun c => byte c.val) ++ List.replicate (6 - l.length) 0#8)

/-- The ids of the bytes a set uses. -/
def decodeIds : List Byte → Option (List CondId)
  | [] => some []
  | b :: l => do
    let c ← below 128 b.toNat
    let r ← decodeIds l
    some (c :: r)

/-- Table 8-12, table 6: the unused id bytes are ignored (R140). -/
def decodeCondSet : List Byte → Option (List CondId)
  | n :: ids => if n.toNat ≤ 6 ∧ ids.length = 6 then decodeIds (ids.take n.toNat) else none
  | [] => none

/-! ### ACTUATOR -/

/-- The ranges of Table 1-6. -/
def BinaryFields.inRange (f : BinaryFields) : Bool := within 1 1023 f.demand && within 1 16 f.groupSize

/-- The ranges of Table 1-7 that do not depend on another field (R174). -/
def PropFields.inRange (f : PropFields) : Bool :=
  within 1 1023 f.minFlow && within 1 1023 f.maxFlow && within 1 255 f.upStep && within 1 255 f.downStep &&
  within 0 2000 f.creepDistance && within 1 1023 f.creepFlow && within 0 4095 f.gain && within 0 1023 f.deadband &&
  within 1 2047 f.maxSpan

/-- The ranges of the fields of either kind. -/
def ActKind.inRange : ActKind → Bool
  | .binary f => f.inRange
  | .proportional f => f.inRange

/-- The kind of an actuator (Table 1-5). -/
def ActRec.chanKind (r : ActRec) : ChanKind :=
  match r.kind with
  | .binary _ => .binary
  | .proportional _ => .proportional

/-- The nineteen bytes of the kind's own fields (Table 8-12, table 7): unused bytes are sent as 0 (R140). -/
def encodeActKind : ActKind → List Byte
  | .binary f => be16n f.demand ++ [byte f.groupSize] ++ List.replicate 16 0#8
  | .proportional f =>
    be16n f.minFlow ++ be16n f.maxFlow ++ [byte f.upStep, byte f.downStep] ++ be16n f.creepDistance ++
    be16n f.creepFlow ++ be16n f.gain ++ be16n f.deadband ++ be16n f.maxSpan ++
    [byte f.posRole.code.val, byte f.outEndRole.code.val, byte f.inEndRole.code.val]

/-- Table 8-12, table 7. -/
def encodeActuator (r : ActRec) : List Byte :=
  [byte r.chanKind.code, Node.addr r.node, byte r.channel.val, byte r.side.code] ++ encodeActKind r.kind

/-- The fields of a BINARY actuator read; the unused bytes are ignored. -/
def decodeBinary : List Byte → Option ActKind
  | d1 :: d0 :: g :: unused =>
    if unused.length = 16 then some (.binary { demand := num16 d1 d0, groupSize := g.toNat }) else none
  | _ => none

/-- The fields of a PROPORTIONAL actuator read. -/
def decodeProportional : List Byte → Option ActKind
  | [m1, m0, x1, x0, up, dn, cd1, cd0, cf1, cf0, k1, k0, db1, db0, sp1, sp0, pr, oe, ie] => do
    let pos ← SigRole.ofCode pr.toNat
    let outEnd ← SigRole.ofCode oe.toNat
    let inEnd ← SigRole.ofCode ie.toNat
    some (.proportional
      { minFlow := num16 m1 m0, maxFlow := num16 x1 x0, upStep := up.toNat, downStep := dn.toNat,
        creepDistance := num16 cd1 cd0, creepFlow := num16 cf1 cf0, gain := num16 k1 k0, deadband := num16 db1 db0,
        maxSpan := num16 sp1 sp0, posRole := pos, outEndRole := outEnd, inEndRole := inEnd })
  | _ => none

/-- Table 8-12, table 7. -/
def decodeActuator : List Byte → Option ActRec
  | k :: n :: c :: s :: rest => do
    let kind ← ChanKind.ofCode k.toNat
    let node ← nodeAt n.toNat
    let channel ← below 8 c.toNat
    let side ← Side.ofCode s.toNat
    let fields ← match kind with
      | .binary => decodeBinary rest
      | .proportional => decodeProportional rest
    if fields.inRange then some { kind := fields, node := node, channel := channel, side := side } else none
  | _ => none

/-! ### HATCH -/

/-- The ranges of Table 1-4; PAUSE is no member of the resume enables (R7). -/
def HatchRec.inRange (r : HatchRec) : Bool := within 0 1023 r.reservation && !r.resume.pause

/-- Bit `i` of a byte, as a test. -/
def bitOf (b : Byte) (i : Nat) : Bool := b.getLsbD i

/-- A bit set as a byte: member `i` of the list gives bit `i` (R140). -/
def packBits : List Bool → Nat
  | [] => 0
  | b :: l => (if b then 1 else 0) + 2 * packBits l

/-- The bit set of hold causes (Table 8-11). -/
def HoldSet.byteOf (s : HoldSet) : Byte :=
  byte (packBits [s.condition, s.holdLapse, s.pause, s.linkLapse, s.nodeFault])

/-- The bit set of trip causes (Table 8-11). -/
def TripSet.byteOf (s : TripSet) : Byte :=
  byte (packBits [s.tripCondition, s.stepTimeout, s.readback, s.nodeLost, s.localEstop, s.estopInput, s.linkLost])

/-- The signal presence bits, bit 0 the least significant of three bytes (R140). -/
def presenceBits (t : Tab (Option SignalId) 20) : Nat := packBits (t.toList.map Option.isSome)

/-- Table 8-12, table 8. -/
def encodeHatch (r : HatchRec) : List Byte :=
  [boolByte r.enabled, byte r.profile.val] ++
  (r.acts.toList.map fun a => optByte (a.map (·.val))) ++
  (r.sigs.toList.map fun s => byte ((s.map (·.val)).getD 0)) ++
  [byte (presenceBits r.sigs / 65536), byte (presenceBits r.sigs / 256), byte (presenceBits r.sigs)] ++
  [({ r.resume with pause := false } : HoldSet).byteOf] ++ be16n r.reservation

/-- The actuator binding read: eight bytes, an id or 0xFF. -/
def decodeActBinding : List Byte → Option (List (Option ActId))
  | [] => some []
  | b :: l => do
    let a ← decodeOptByte 96 b
    let r ← decodeActBinding l
    some (a :: r)

/-- The signal binding read: role `i` of the list is present when bit `i` of `bits` is set, whatever its byte (R140). -/
def decodeSigBinding : List Byte → Nat → List (Option SignalId)
  | [], _ => []
  | b :: l, bits => (if bits % 2 = 1 then some ⟨b.toNat, b.isLt⟩ else none) :: decodeSigBinding l (bits / 2)

/-- Table 8-12, table 8. -/
def decodeHatch : List Byte → Option HatchRec
  | e :: p :: rest =>
    match rest.drop 28 with
    | [p2, p1, p0, rs, v1, v0] => do
      let enabled ← decodeBool e
      let profile ← below 4 p.toNat
      let acts ← decodeActBinding (rest.take 8)
      let actTab ← tabOfList 8 acts
      let sigTab ← tabOfList 20
        (decodeSigBinding ((rest.drop 8).take 20) (p2.toNat * 65536 + p1.toNat * 256 + p0.toNat))
      let r : HatchRec :=
        { enabled := enabled, profile := profile, acts := actTab, sigs := sigTab,
          resume :=
            { condition := bitOf rs 0, holdLapse := bitOf rs 1, linkLapse := bitOf rs 3, nodeFault := bitOf rs 4 },
          reservation := num16 v1 v0 }
      if r.inRange then some r else none
    | _ => none
  | _ => none

/-! ### STEP -/

/-- The ranges of a command (R55). -/
def Command.inRange : Command → Bool
  | .sideA | .sideB => true
  | .outTo v p | .inTo v p => within 1 1023 v && within 0 16000 p

/-- The ranges of Table 4-1. -/
def StepRec.inRange (r : StepRec) : Bool :=
  within 0 10000 r.settle && within 1 6000 r.timeout &&
  r.actions.toList.all fun a => (a.map fun x => x.command.inRange).getD true

/-- The command, speed and stop position of an action (Table 8-11, Table 8-12). -/
def encodeCommand : Command → List Byte
  | .sideA => [0#8] ++ be16n 0 ++ be16n 0
  | .sideB => [1#8] ++ be16n 0 ++ be16n 0
  | .outTo v p => [2#8] ++ be16n v ++ be16n p
  | .inTo v p => [3#8] ++ be16n v ++ be16n p

/-- The command of a code, with its speed and stop position. -/
def decodeCommand (c v p : Nat) : Option Command :=
  match c with
  | 0 => some .sideA
  | 1 => some .sideB
  | 2 => some (.outTo v p)
  | 3 => some (.inTo v p)
  | _ => none

/-- The six bytes of an action slot: role 0xFF when empty. -/
def encodeSlot : Option Action → List Byte
  | none => 0xFF#8 :: List.replicate 5 0#8
  | some a => byte a.role.code.val :: encodeCommand a.command

/-- The six bytes of an action slot read. -/
def decodeSlot : List Byte → Option (Option Action)
  | [r, c, v1, v0, p1, p0] =>
    if r = 0xFF#8 then some none
    else do
      let role ← ActRole.ofCode r.toNat
      let command ← decodeCommand c.toNat (num16 v1 v0) (num16 p1 p0)
      some (some { role := role, command := command })
  | _ => none

/-- Table 8-12, table 9. -/
def encodeStep (r : StepRec) : List Byte :=
  r.actions.toList.flatMap encodeSlot ++
  [byte r.startSet.val, byte r.holdSet.val, byte r.tripSet.val, byte r.doneSet.val] ++
  be16n r.settle ++ be16n r.timeout ++ [byte (packBits [r.attended, r.last])] ++
  [optByte (r.reentry.map (·.val)), optByte (r.reverse.map (·.val))]

/-- Table 8-12, table 9. -/
def decodeStep (l : List Byte) : Option StepRec :=
  match l.drop 24 with
  | [ss, hs, ts, ds, st1, st0, to1, to0, fl, re, rv] => do
    let slots ← decodeMany decodeSlot 6 4 (l.take 24)
    let actions ← tabOfList 4 slots
    let startSet ← below 64 ss.toNat
    let holdSet ← below 64 hs.toNat
    let tripSet ← below 64 ts.toNat
    let doneSet ← below 64 ds.toNat
    let reentry ← decodeOptByte 24 re
    let reverse ← decodeOptByte 24 rv
    let r : StepRec :=
      { actions := actions, startSet := startSet, holdSet := holdSet, tripSet := tripSet, doneSet := doneSet,
        settle := num16 st1 st0, timeout := num16 to1 to0, attended := bitOf fl 0, last := bitOf fl 1,
        reentry := reentry, reverse := reverse }
    if r.inRange then some r else none
  | _ => none

/-! ### Records by table id and index -/

/-- A record with the table and the index it belongs to. -/
inductive TableRecord
  | global (r : GlobalRec)
  | pump (i : Fin 4) (r : PumpRec)
  | node (i : Node) (r : NodeRec)
  | signal (i : SignalId) (r : SignalRec)
  | condition (i : CondId) (r : CondRec)
  | condset (i : SetId) (r : List CondId)
  | actuator (i : ActId) (r : ActRec)
  | hatch (i : Hatch) (r : HatchRec)
  | step (i : Fin 192) (r : StepRec)
  deriving DecidableEq, Repr

/-- The record that a LOAD_RECORD's table id, index and bytes name (R174): none where an argument is out of range, and
none for CONDSET record 0 (R46). -/
def decodeRecord (table index : Nat) (bytes : List Byte) : Option TableRecord :=
  match table with
  | 1 => if index = 0 then (decodeGlobal bytes).map .global else none
  | 2 => if 1 ≤ index then do some (.pump (← below 4 (index - 1)) (← decodePump bytes)) else none
  | 3 => do some (.node (← nodeAt index) (← decodeNode bytes))
  | 4 => do some (.signal (← below 256 index) (← decodeSignal bytes))
  | 5 => do some (.condition (← below 128 index) (← decodeCondition bytes))
  | 6 => if 1 ≤ index then do some (.condset (← below 64 index) (← decodeCondSet bytes)) else none
  | 7 => do some (.actuator (← below 96 index) (← decodeActuator bytes))
  | 8 => do some (.hatch (← hatchAt index) (← decodeHatch bytes))
  | 9 => do some (.step (← below 192 index) (← decodeStep bytes))
  | _ => none

/-- The record replaces the one of its table and index (R174). -/
def TableImage.load (im : TableImage) : TableRecord → TableImage
  | .global r => { im with global := r }
  | .pump i r => { im with pump := im.pump.put i r }
  | .node i r => { im with node := im.node.put i r }
  | .signal i r => { im with signal := im.signal.put i r }
  | .condition i r => { im with condition := im.condition.put i r }
  | .condset i r => { im with condset := im.condset.put i r }
  | .actuator i r => { im with actuator := im.actuator.put i r }
  | .hatch i r => { im with hatch := im.hatch.put i r }
  | .step i r => { im with step := im.step.put i r }

/-- The encoding of the record of a table id and an index, where they are in range (R174). -/
def TableImage.recordBytes (im : TableImage) (table index : Nat) : Option (List Byte) :=
  match table with
  | 1 => if index = 0 then some (encodeGlobal im.global) else none
  | 2 => if 1 ≤ index then (below 4 (index - 1)).map fun i => encodePump (im.pump.read i) else none
  | 3 => (nodeAt index).map fun i => encodeNode (im.node.read i)
  | 4 => (below 256 index).map fun i => encodeSignal (im.signal.read i)
  | 5 => (below 128 index).map fun i => encodeCondition (im.condition.read i)
  | 6 => (below 64 index).map fun i => encodeCondSet (im.setOf i)
  | 7 => (below 96 index).map fun i => encodeActuator (im.actuator.read i)
  | 8 => (hatchAt index).map fun i => encodeHatch (im.hatch.read i)
  | 9 => (below 192 index).map fun i => encodeStep (im.step.read i)
  | _ => none

/-- The condition sets as they are encoded: set 0 as the empty list (R46). -/
def TableImage.encodedSets (im : TableImage) : List Byte :=
  im.condset.entries.flatMap fun p => encodeCondSet (if p.1 = 0 then [] else p.2)

/-- The whole image in its encoding: tables in ascending id, records in ascending index (R176). -/
def TableImage.encode (im : TableImage) : List Byte :=
  encodeGlobal im.global ++ im.pump.toList.flatMap encodePump ++ im.node.toList.flatMap encodeNode ++
  im.signal.toList.flatMap encodeSignal ++ im.condition.toList.flatMap encodeCondition ++ im.encodedSets ++
  im.actuator.toList.flatMap encodeActuator ++ im.hatch.toList.flatMap encodeHatch ++ im.step.toList.flatMap encodeStep

/-- The image CRC (R176). -/
def TableImage.crc (im : TableImage) : Word16 := crc16 im.encode

end Sys2Proof.Machine
end

