-- ==== Sys2Proof/Machine/State.lean ====
section
/-! DEFINITION. The state of the HSB-412, block by block (Table 0-1), and the machine right after reset. -/

namespace Sys2Proof.Machine

/-- The reasons a command could stop with a fault: there are none. Every command of the part has an effect that the
manual gives, and what the manual calls faults are effects on the state (safe: nothing is hidden by a stop). -/
inductive Fault
  deriving DecidableEq, Repr

/-- The reasons a command is refused. -/
inductive Refusal
  /-- Raised by `exec` alone, for a row whose meaning is not written; no arm of this model raises it. Safe. -/
  | notModelled (mnemonic : String)
  deriving DecidableEq, Repr

/-! ### Management Unit -/

/-- Whether an accepted RESET_DEVICE is on its way (R170): none, waiting for its DONE reply to leave, or due. -/
inductive ResetPhase | inactive | awaitingReply | due
  deriving DecidableEq, Repr

/-- The nonvolatile table store (R171): an image, and the reference CRC unless it is invalid or was never written. -/
structure Store where
  image : TableImage := .empty
  crc : Option Word16 := none
  deriving DecidableEq, Repr

/-- The Management Unit: mode, sticky flags, tables, store, straps, line rates. `tableless` is the model's own: no
configuration has reached OPERATE since a start-up that found no tables (R179, log entry 41). -/
structure MgmtUnit where
  mode : Mode
  flags : Word16
  active : TableImage
  working : TableImage
  store : Store
  straps : Fin 4
  cRate : CRate
  fRate : FRate
  storeLeft : Option Nat
  resetPhase : ResetPhase
  tableless : Bool
  deriving DecidableEq, Repr

/-! ### Console Port -/

/-- An entry of the C receive queue: a valid frame, or the bytes of an invalid one with its error mark (R131). -/
inductive RxEntry
  | valid (f : Frame)
  | invalid (bytes : List Byte) (reason : RejectReason)
  deriving DecidableEq, Repr

/-- An entry of the C transmit queue: a frame the part originates, whose status byte and CRC are built when its
transmission begins (R130), or a forwarded reply. `resets` marks the DONE reply of an accepted RESET_DEVICE (R170). -/
inductive TxEntry
  | own (kind : Kind) (dest tag : Byte) (payload : List Byte) (resets : Bool)
  | forwarded (f : Frame)
  deriving DecidableEq, Repr

/-- The frame in transmission on the C-port, with the rate it is sent at (R137). -/
structure Sending where
  bytes : List Byte
  rate : CRate
  deriving DecidableEq, Repr

/-- The Console Port: its two queues, and the frame in transmission. -/
structure ConsolePort where
  rx : List RxEntry := []
  tx : List TxEntry := []
  sending : Option Sending := none
  deriving DecidableEq, Repr

/-! ### Stop Logic and Link Supervisor -/

/-- The debounced state of ESTOP_IN (R167). -/
inductive Estop | released | active
  deriving DecidableEq, Repr

/-- The Stop Logic: the pin, its debounced state, the run in progress with its time left, and the motion-released state
that the MOTION_EN pin follows (R167, R169). -/
structure StopLogic where
  pinActive : Bool := false
  estop : Estop := .released
  run : Option Nat := none
  motionReleased : Bool := false
  deriving DecidableEq, Repr

/-- A hold window timer (R165). -/
inductive Window
  | stopped
  | live (left : Nat)
  | lapsed
  deriving DecidableEq, Repr

/-- The Link Supervisor: LINK_LAPSE, the link window timer, one hold window timer per hatch (R165, R166). -/
structure LinkSupervisor where
  lapse : Bool := false
  link : Option Nat := none
  windows : Tab Window 12 := Tab.fill 12 .stopped
  deriving DecidableEq, Repr

/-! ### Sensor Image Unit -/

/-- The dynamic state of a signal (Table 2-2). -/
structure SignalState where
  value : Int := 0
  quality : Quality := .stale
  age : Nat := 1000
  candidate : Option Bool := none
  run : Nat := 0
  deriving DecidableEq, Repr

/-! ### Hatch Sequencers -/

/-- The hatch status record (Table 5-1). -/
structure HatchStatus where
  state : SeqState := .idle
  operation : Option Op := none
  step : Option StepNo := none
  phase : Option Phase := none
  active : HoldSet := {}
  latched : HoldSet := {}
  history : HoldSet := {}
  trips : TripSet := {}
  firstTrip : Option TripCause := none
  request : Option (Op × Console) := none
  marker : Option (Op × StepNo) := none
  owner : Option Console := none
  lastResume : Option (ResumeKind × HoldSet) := none
  rest : RestState := .unknown
  stepTimer : Option Nat := none
  settleTimer : Option Nat := none
  deriving DecidableEq, Repr

/-! ### Flow Allocator -/

/-- A flow request (R95): its binary demand, and its proportional actions with their minimum flows. -/
structure FlowRequest where
  hatch : Hatch
  dStep : Nat
  actions : List (ActId × Nat)
  deriving DecidableEq, Repr

/-- A unit of the admission list (R97): an admitted request with the actions still in motion, or a manual reservation. -/
inductive FlowUnit
  | step (request : FlowRequest) (inMotion : List (ActId × Nat))
  | manual (hatch : Hatch) (reservation : Nat)
  deriving DecidableEq, Repr

/-- The Flow Allocator (Table 6-1): A, the flow queue, the admission list. The rest of the table is derived from these
and from the drive entries (R97, R112). -/
structure FlowAllocator where
  avail : Nat := 0
  queue : List FlowRequest := []
  units : List FlowUnit := []
  deriving DecidableEq, Repr

/-! ### Drive Ramp Unit -/

/-- The entry of one actuator in the Drive Ramp Unit (Table 7-1). -/
structure Drive where
  state : DriveState := .atRest
  direction : Option Direction := none
  speed : Option Nat := none
  stopPosition : Option Nat := none
  target : Nat := 0
  paused : Bool := false
  alloc : Nat := 0
  c : Nat := 0
  code : Nat := 2048
  saturated : Bool := false
  deriving DecidableEq, Repr

/-- The Drive Ramp Unit: 96 entries and the ramp tick timer (R113). -/
structure DriveRampUnit where
  drives : Tab Drive 96 := Tab.fill 96 {}
  tickLeft : Nat := 20
  deriving DecidableEq, Repr

/-! ### Output Image and Readback -/

/-- One output channel of the image: its value, and the mark of a value still to be written (R146). -/
structure OutChan where
  value : Nat := 0
  dirty : Bool := false
  deriving DecidableEq, Repr

/-- The output image and the refresh timers (Table 9-1). -/
structure OutputImage where
  image : Tab (Tab OutChan 8) 47
  refreshLeft : Tab Nat 47
  deriving DecidableEq, Repr

/-! ### Field Line Controller -/

/-- The function of a request on the F-line (Table 8-4). -/
inductive Fn | readInputs | writeOutputs | readStatus
  deriving DecidableEq, Repr

/-- The requester of a transaction (R142). -/
inductive Requester
  | part
  | console (c : Console)
  deriving DecidableEq, Repr

/-- The outstanding-transaction record (R142). `left` is the reply timeout, which starts when the request's last byte
has been sent: while it is none, the part is transmitting. -/
structure Transaction where
  node : Node
  fn : Fn
  tag : Byte
  requester : Requester
  sent : List (Chan × Nat)
  left : Option Nat
  deriving DecidableEq, Repr

/-- The due mark and the scan timer of a node (R145). -/
structure ScanEntry where
  due : Bool := false
  left : Option Nat := none
  deriving DecidableEq, Repr

/-- The turn marker of the arbiter (R144). -/
inductive Turn | forwardedWork | scanPolls
  deriving DecidableEq, Repr

/-- A node record (Table 9-2). -/
structure NodeRecord where
  state : NodeState := .absent
  misses : Nat := 0
  alertRun : Nat := 0
  saturated : Bool := false
  alertPending : Bool := false
  faultWord : Word16 := 0
  sinceReply : Nat := 65535
  deriving DecidableEq, Repr

/-- A frame the part has begun to send on the F-line, with the rate. The model's own record of what leaves on F_A/F_B. -/
structure LineFrame where
  bytes : List Byte
  rate : FRate
  deriving DecidableEq, Repr

/-- The Field Line Controller (Table 9-1). `position` is the address of the node last polled, 0 before node 1. -/
structure FieldLine where
  outstanding : Option Transaction := none
  forward : List Frame := []
  neutralPending : Bool := false
  scan : Tab ScanEntry 47
  position : Nat := 0
  turn : Turn := .forwardedWork
  tagCounter : Byte := 0
  nodes : Tab NodeRecord 47
  lineOut : Option LineFrame := none
  deriving DecidableEq, Repr

/-! ### The machine -/

/-- The state of the part. `freeCount` is the model's own: the free values of `Config` are drawn with it. `pending` is
the queue of commands that wait. -/
structure State where
  mu : MgmtUnit
  cp : ConsolePort
  sl : StopLogic
  ls : LinkSupervisor
  signals : Tab SignalState 256
  hatches : Tab HatchStatus 12
  fa : FlowAllocator
  dru : DriveRampUnit
  oir : OutputImage
  flc : FieldLine
  shadows : Tab (Tab Nat 8) 47
  freeCount : Nat
  pending : List Instr
  deriving DecidableEq, Repr

/-- The word of the sticky flags after a reset: RESET_OCCURRED, and TABLE_CRC when start-up finds no image (R164). -/
def resetFlags (imageFound : Bool) : Word16 := if imageFound then 0x0400#16 else 0x0500#16

/-- Every block at its reset values under the image `im` that start-up found, if it found one (R37, R66, R94, R113,
R139, R141, R158, R164 to R167, R169, R179). What a reset keeps comes as arguments: the store, the level of ESTOP_IN,
the model's counter and the waiting commands. -/
def bootState (found : Option TableImage) (straps : Fin 4) (store : Store) (pinActive : Bool) (freeCount : Nat)
    (pending : List Instr) : State :=
  let im := found.getD .empty
  { mu :=
      { mode := if found.isSome then .operate else .noTables, flags := resetFlags found.isSome, active := im,
        working := .empty, store := store, straps := straps, cRate := im.global.cRate, fRate := im.global.fRate,
        storeLeft := none, resetPhase := .inactive, tableless := found.isNone },
    cp := {},
    sl := { pinActive := pinActive, run := if pinActive then some 5 else none },
    ls := { link := linkTimer im.global },
    signals := im.signal.mapAll fun r => { age := r.maxAge },
    hatches := Tab.fill 12 {},
    fa := {},
    dru := { tickLeft := im.global.rampTick },
    oir :=
      { image := im.node.mapAll fun r => r.neutrals.mapAll fun v => { value := v },
        refreshLeft := Tab.fill 47 im.global.outputRefresh },
    flc :=
      { scan := im.node.mapAll fun r => { due := r.inMap && r.poll },
        nodes := im.node.mapAll fun r => { state := if r.inMap then .unknown else .absent } },
    shadows := im.node.mapAll NodeRec.neutrals,
    freeCount := freeCount,
    pending := pending }

/-- The machine right after reset, its store never written (log entry 8), the straps at 0 and ESTOP_IN inactive (log
entry 9), and no command waiting: start-up finds no image, so the mode is NO_TABLES (R179). -/
def State.reset : State := bootState none 0 {} false 0 []

end Sys2Proof.Machine
end

