-- ==== Sys2Proof/Machine/Ops.lean ====
section
/-! DEFINITION. The named operations over the state that every block uses: the image followed, reading and writing one
entry of a block, and the event under way. -/

namespace Sys2Proof.Machine

/-- The image every block follows for the device mode (R172). In NO_TABLES the active tables are the empty ones, with
the GLOBAL fields that WRITE_ITEM has written (R163, R179). -/
def State.image (s : State) : TableImage :=
  match s.mu.mode with
  | .config => s.mu.working
  | .noTables | .storing | .operate => s.mu.active

/-- The part's own address byte: 60 plus the straps (R129). -/
def State.ownAddr (s : State) : Byte := byte (60 + s.mu.straps.val)

/-- The HATCH record of a hatch in the image followed. -/
def State.hatchRec (s : State) (h : Hatch) : HatchRec := s.image.hatch.read h

/-- Whether a hatch is enabled (R5). -/
def State.enabled (s : State) (h : Hatch) : Bool := (s.hatchRec h).enabled

/-- The status record of a hatch. -/
def State.hatch (s : State) (h : Hatch) : HatchStatus := s.hatches.read h

/-- The status record of a hatch replaced. -/
def State.setHatch (s : State) (h : Hatch) (r : HatchStatus) : State := { s with hatches := s.hatches.put h r }

/-- The status record of a hatch changed. -/
def State.modHatch (s : State) (h : Hatch) (f : HatchStatus → HatchStatus) : State := s.setHatch h (f (s.hatch h))

/-- The entry of a signal in the sensor image. -/
def State.signal (s : State) (i : SignalId) : SignalState := s.signals.read i

/-- A signal that is FRESH (R19). -/
def SignalState.fresh (x : SignalState) : Bool := x.quality == .fresh

/-- A signal that is FRESH and true: non-zero (R1). -/
def SignalState.freshTrue (x : SignalState) : Bool := x.fresh && x.value != 0

/-- The entry of the signal a role of a hatch is bound to. -/
def State.roleSignal (s : State) (h : Hatch) (r : SigRole) : Option SignalState :=
  ((s.hatchRec h).signalOf r).map s.signal

/-- A role of a hatch reads FRESH and true; an absent role does not (R6, R13). -/
def State.roleTrue (s : State) (h : Hatch) (r : SigRole) : Bool :=
  (s.roleSignal h r).any SignalState.freshTrue

/-- The hold window of a hatch. -/
def State.window (s : State) (h : Hatch) : Window := s.ls.windows.read h

/-- The hold window of a hatch replaced. -/
def State.setWindow (s : State) (h : Hatch) (w : Window) : State :=
  { s with ls := { s.ls with windows := s.ls.windows.put h w } }

/-- The hold window of a hatch started afresh with the hold window of the GLOBAL record (R165). -/
def State.startWindow (s : State) (h : Hatch) : State := s.setWindow h (.live s.image.global.holdWindow)

/-- A hold window is live from its start until its expiry or its stop (R156). -/
def Window.isLive : Window → Bool
  | .live _ => true
  | .stopped | .lapsed => false

/-- The drive entry of an actuator. -/
def State.drive (s : State) (a : ActId) : Drive := s.dru.drives.read a

/-- The drive entry of an actuator replaced. -/
def State.setDrive (s : State) (a : ActId) (d : Drive) : State :=
  { s with dru := { s.dru with drives := s.dru.drives.put a d } }

/-- The record of a node. -/
def State.node (s : State) (n : Node) : NodeRecord := s.flc.nodes.read n

/-- The record of a node replaced. -/
def State.setNode (s : State) (n : Node) (r : NodeRecord) : State :=
  { s with flc := { s.flc with nodes := s.flc.nodes.put n r } }

/-- A channel of the output image. -/
def State.outChan (s : State) (n : Node) (c : Chan) : OutChan := (s.oir.image.read n).read c

/-- A channel of the output image replaced. -/
def State.setOutChan (s : State) (n : Node) (c : Chan) (o : OutChan) : State :=
  { s with oir := { s.oir with image := s.oir.image.put n ((s.oir.image.read n).put c o) } }

/-- A write of the output image: one that changes the value marks the channel dirty, one that gives the value already
held changes nothing (R146). -/
def State.writeOut (s : State) (n : Node) (c : Chan) (v : Nat) : State :=
  if (s.outChan n c).value = v then s else s.setOutChan n c { value := v, dirty := true }

/-- The manual output shadow of a channel (R158). -/
def State.shadow (s : State) (n : Node) (c : Chan) : Nat := (s.shadows.read n).read c

/-- The manual output shadow of a channel replaced. -/
def State.setShadow (s : State) (n : Node) (c : Chan) (v : Nat) : State :=
  { s with shadows := s.shadows.put n ((s.shadows.read n).put c v) }

/-- MOTION_EN follows the motion-released state (R169). -/
def State.motionEn (s : State) : Bool := s.sl.motionReleased

/-! ### Sets of hold causes and of trip causes -/

/-- No cause stands. -/
def HoldSet.isEmpty (s : HoldSet) : Bool := !(s.condition || s.holdLapse || s.pause || s.linkLapse || s.nodeFault)

/-- Whether a cause is in the set. -/
def HoldSet.has (s : HoldSet) : HoldCause → Bool
  | .condition => s.condition
  | .holdLapse => s.holdLapse
  | .pause => s.pause
  | .linkLapse => s.linkLapse
  | .nodeFault => s.nodeFault

/-- The set with the cause in it or out of it. -/
def HoldSet.set (s : HoldSet) (b : Bool) : HoldCause → HoldSet
  | .condition => { s with condition := b }
  | .holdLapse => { s with holdLapse := b }
  | .pause => { s with pause := b }
  | .linkLapse => { s with linkLapse := b }
  | .nodeFault => { s with nodeFault := b }

/-- The causes of either set. -/
def HoldSet.union (a b : HoldSet) : HoldSet :=
  { condition := a.condition || b.condition, holdLapse := a.holdLapse || b.holdLapse, pause := a.pause || b.pause,
    linkLapse := a.linkLapse || b.linkLapse, nodeFault := a.nodeFault || b.nodeFault }

/-- The causes of the first set that are not in the second. -/
def HoldSet.diff (a b : HoldSet) : HoldSet :=
  { condition := a.condition && !b.condition, holdLapse := a.holdLapse && !b.holdLapse, pause := a.pause && !b.pause,
    linkLapse := a.linkLapse && !b.linkLapse, nodeFault := a.nodeFault && !b.nodeFault }

/-- The set of one cause. -/
def HoldCause.only (c : HoldCause) : HoldSet := ({} : HoldSet).set true c

/-- The causes of a set that are latched on becoming active: those the resume enables do not hold. PAUSE is in no resume
enables (R7, R78). -/
def HatchRec.latches (r : HatchRec) (s : HoldSet) : HoldSet := s.diff { r.resume with pause := false }

/-- The causes of either set. -/
def TripSet.union (a b : TripSet) : TripSet :=
  { tripCondition := a.tripCondition || b.tripCondition, stepTimeout := a.stepTimeout || b.stepTimeout,
    readback := a.readback || b.readback, nodeLost := a.nodeLost || b.nodeLost,
    localEstop := a.localEstop || b.localEstop, estopInput := a.estopInput || b.estopInput,
    linkLost := a.linkLost || b.linkLost }

/-- The earliest cause of the set in the order of Table 5-5. -/
def TripSet.first (s : TripSet) : Option TripCause :=
  if s.tripCondition then some .tripCondition
  else if s.stepTimeout then some .stepTimeout
  else if s.readback then some .readback
  else if s.nodeLost then some .nodeLost
  else if s.localEstop then some .localEstop
  else if s.estopInput then some .estopInput
  else if s.linkLost then some .linkLost
  else none

/-- No cause is in the set. -/
def TripSet.isEmpty (s : TripSet) : Bool := s.first.isNone

/-- The set of one cause. -/
def TripCause.only : TripCause → TripSet
  | .tripCondition => { tripCondition := true }
  | .stepTimeout => { stepTimeout := true }
  | .readback => { readback := true }
  | .nodeLost => { nodeLost := true }
  | .localEstop => { localEstop := true }
  | .estopInput => { estopInput := true }
  | .linkLost => { linkLost := true }

/-! ### Bindings of a hatch -/

/-- The actuators bound to a hatch. -/
def HatchRec.actIds (r : HatchRec) : List ActId := r.acts.toList.filterMap id

/-- The fields of an actuator, when it is PROPORTIONAL. -/
def ActRec.prop? (r : ActRec) : Option PropFields :=
  match r.kind with
  | .proportional f => some f
  | .binary _ => none

/-- The demand of an actuator, when it is BINARY (R11). -/
def ActRec.demand? (r : ActRec) : Option Nat :=
  match r.kind with
  | .binary f => some f.demand
  | .proportional _ => none

/-- An actuator of kind PROPORTIONAL. -/
def TableImage.isProp (im : TableImage) (a : ActId) : Bool := (im.actuator.read a).prop?.isSome

/-- The proportional actuators bound to a hatch. -/
def State.propActs (s : State) (h : Hatch) : List ActId := (s.hatchRec h).actIds.filter s.image.isProp

/-- The binary actuators bound to a hatch. -/
def State.binaryActs (s : State) (h : Hatch) : List ActId :=
  (s.hatchRec h).actIds.filter fun a => !s.image.isProp a

/-- The owning hatch of an actuator: the enabled hatch it is bound to (R9). -/
def TableImage.ownerOf (im : TableImage) (a : ActId) : Option Hatch :=
  (im.hatch.entries.find? fun p => p.2.enabled && p.2.actIds.contains a).map (·.1)

/-- A node is bound to an enabled hatch when an actuator or a signal bound to the hatch is on it (R14). -/
def TableImage.boundNode (im : TableImage) (h : Hatch) (n : Node) : Bool :=
  let r := im.hatch.read h
  r.enabled &&
    ((r.actIds.any fun a => (im.actuator.read a).node == n) ||
      (r.sigs.toList.any fun x => x.any fun i => (im.signal.read i).node == some n))

/-- Some bound node of the hatch has a record that satisfies `p`. -/
def State.someBoundNode (s : State) (h : Hatch) (p : NodeRecord → Bool) : Bool :=
  s.flc.nodes.entries.any fun x => p x.2 && s.image.boundNode h x.1

/-- A bound node of the hatch is LOST. -/
def State.boundLost (s : State) (h : Hatch) : Bool := s.someBoundNode h fun r => r.state == .lost

/-- A bound node's fault word is non-zero. -/
def State.boundFault (s : State) (h : Hatch) : Bool := s.someBoundNode h fun r => r.faultWord != 0

/-- The enabled hatches, in ascending number. -/
def State.enabledHatches (s : State) : List Hatch := allHatches.filter s.enabled

/-! ### The event under way -/

/-- One event as its rules are applied: the state so far, the notices of the hatches to be offered in ascending hatch
number (R92), the hatches whose requests have joined the flow queue in it (R96), whether an admission pass follows the
event (R99) and whether the allocations are recomputed (R106). -/
structure Ev where
  st : State
  notices : List (Hatch × TxEntry)
  joined : List Hatch
  passDue : Bool
  reallocDue : Bool

/-- The event at its beginning. -/
def Ev.begin (s : State) : Ev := { st := s, notices := [], joined := [], passDue := false, reallocDue := false }

/-- A change of the state within the event. -/
def Ev.mod (e : Ev) (f : State → State) : Ev := { e with st := f e.st }

/-- A notice of a hatch, to be offered at the end of the event. -/
def Ev.note (e : Ev) (h : Hatch) (n : TxEntry) : Ev := { e with notices := e.notices ++ [(h, n)] }

/-- An admission pass follows the event, with a new computation of the allocations. -/
def Ev.wantPass (e : Ev) : Ev := { e with passDue := true, reallocDue := true }

/-- The request of a hatch has joined the flow queue in the event. -/
def Ev.noteJoin (e : Ev) (h : Hatch) : Ev := { e with joined := h :: e.joined }

/-- What follows is an event of its own to the flow queue: the requests that join it stand behind all before them. -/
def Ev.joinsAnew (e : Ev) : Ev := { e with joined := [] }

/-- The allocations are recomputed at the end of the event. -/
def Ev.wantRealloc (e : Ev) : Ev := { e with reallocDue := true }

/-- One change of the event for each hatch of a list, in its order. -/
def Ev.forHatches (e : Ev) (l : List Hatch) (f : Hatch → Ev → Ev) : Ev := l.foldl (fun e h => f h e) e

end Sys2Proof.Machine
end

