-- ==== Sys2Proof/Machine/Clock.lean ====
section
/-! DEFINITION. One millisecond of the part's time, which passes at a step on an empty queue (log entry 2): ages and times
rise, timers run down. No expiry comes about here: an expiry is the command of its row. -/

namespace Sys2Proof.Machine

/-- A timer that runs has one millisecond less left. -/
def runDown (t : Option Nat) : Option Nat := t.map (· - 1)

/-- A hold window one millisecond later. -/
def Window.later : Window → Window
  | .live left => .live (left - 1)
  | .stopped => .stopped
  | .lapsed => .lapsed

/-- The age of a FRESH signal counts up to its max age (R24). -/
def SignalState.older (x : SignalState) (maxAge : Nat) : SignalState :=
  if x.fresh then { x with age := min (x.age + 1) maxAge } else x

/-- The timers of a hatch one millisecond later (R59, R60). -/
def HatchStatus.later (r : HatchStatus) : HatchStatus :=
  { r with stepTimer := runDown r.stepTimer, settleTimer := runDown r.settleTimer }

/-- The time since the last reply, held at 65535 (Table 9-2). -/
def NodeRecord.later (r : NodeRecord) : NodeRecord := { r with sinceReply := min (r.sinceReply + 1) 65535 }

/-- The line's timers one millisecond later (R142, R145, R148). -/
def FieldLine.later (f : FieldLine) : FieldLine :=
  { f with
      outstanding := f.outstanding.map fun t => { t with left := runDown t.left },
      scan := f.scan.mapAll fun x => { x with left := runDown x.left },
      nodes := f.nodes.mapAll NodeRecord.later }

/-- The part one millisecond later. -/
def State.tick (s : State) : State :=
  { s with
      mu := { s.mu with storeLeft := runDown s.mu.storeLeft },
      sl := { s.sl with run := runDown s.sl.run },
      ls := { s.ls with link := runDown s.ls.link, windows := s.ls.windows.mapAll Window.later },
      signals := s.signals.mapIdx fun i x => x.older (s.image.signal.read i).maxAge,
      hatches := s.hatches.mapAll HatchStatus.later,
      dru := { s.dru with tickLeft := s.dru.tickLeft - 1 },
      oir := { s.oir with refreshLeft := s.oir.refreshLeft.mapAll (· - 1) },
      flc := s.flc.later }

end Sys2Proof.Machine
end

