-- ==== Sys2Proof/Config.lean ====
section
/-! DEFINITION. What the manual leaves open and the model leaves free (log entry 6): constants without a body, so that
nothing proved of the model rests on their value. -/

namespace Sys2Proof

/-- The two bytes READ_ITEM returns for the speed of a drive that has none (Table 7-1 'absent', Table 8-8 item 6): R140
states the absent value of one-byte fields and of signal ids only. FREE VALUE, log entry 6; DESIGN CHOICE: one per
actuator. -/
opaque Config.absentSpeed : ActId → Word16

/-- The two bytes READ_ITEM returns for the stop position of a drive that has none; as `Config.absentSpeed`. -/
opaque Config.absentStopPosition : ActId → Word16

/-- The byte READ_ITEM returns for a BINARY actuator whose channel holds a value that one byte cannot hold: Table 8-8
gives item 6 one data byte for it. FREE VALUE, log entry 46; DESIGN CHOICE: one per channel value. -/
opaque Config.wideChannelByte : Nat → Byte

/-- The tag of the k-th NEUTRAL broadcast: R129 has the FLC choose the tag, and R142 draws the tag counter for part
requests only. FREE VALUE, log entry 6. -/
opaque Config.neutralTag : Nat → Byte

end Sys2Proof
end

