-- ==== Sys2Proof/Machine/DriveUnit.lean ====
section
/-! DEFINITION. The Drive Ramp Unit: targets, end of travel, ramp and valve codes (chapter 7). -/

namespace Sys2Proof.Machine

/-! ### Valve codes -/

/-- The valve code of a commanded flow, before its clamp (R122): the magnitude on the side of the direction. -/
def rawMagnitude (f : PropFields) (c : Nat) : Nat := if c = 0 then 0 else f.deadband + c * f.gain / 256

/-- The code of a magnitude on a side of neutral. -/
def codeOf (d : Option Direction) (magnitude : Nat) : Nat :=
  match d with
  | some .outward => 2048 + magnitude
  | some .inward => 2048 - magnitude
  | none => 2048

/-- The valve code of a commanded flow: the magnitude of R122, clamped to the max span (R123). -/
def valveCode (f : PropFields) (d : Option Direction) (c : Nat) : Nat := codeOf d (min (rawMagnitude f c) f.maxSpan)

/-- The clamp of R123 acts. -/
def clamps (f : PropFields) (c : Nat) : Bool := decide (f.maxSpan < rawMagnitude f c)

/-- The drive with its commanded flow converted to a code (R122, R123). -/
def Drive.convert (d : Drive) (f : PropFields) : Drive :=
  { d with code := valveCode f d.direction d.c, saturated := clamps f d.c }

/-- The entry of a drive replaced; a code that differs from the code held is placed in the output image at the
actuator's node and channel (R124). -/
def State.placeDrive (s : State) (a : ActId) (d : Drive) : State :=
  let r := s.image.actuator.read a
  let s' := s.setDrive a d
  if d.code = (s.drive a).code then s' else s'.writeOut r.node r.channel d.code

/-- The commanded flow set to 0 at once: the drive is AT_REST with code 2048 and every item at its reset value
(R118, R121). R118 does not name the paused mark among what is cleared; DESIGN CHOICE (log entry 45): it is cleared. -/
def State.restDrive (s : State) (a : ActId) : State := s.placeDrive a {}

/-- `restDrive` for several actuators. -/
def State.restDrives (s : State) (l : List ActId) : State := l.foldl State.restDrive s

/-! ### Targets -/

/-- The speed brought into the actuator's range (R115). -/
def speedTarget (f : PropFields) (speed : Nat) : Nat :=
  if f.maxFlow < speed then f.maxFlow else if speed < f.minFlow then f.minFlow else speed

/-- The remaining distance to the stop position (R115). -/
def remaining (d : Direction) (position stop : Int) : Int :=
  match d with
  | .outward => stop - position
  | .inward => position - stop

/-- The creep zone (R115). -/
def creepTarget (f : PropFields) (d : Direction) (position stop : Int) (t : Nat) : Nat :=
  if 0 < f.creepDistance ∧ remaining d position stop ≤ (f.creepDistance : Int) then min t f.creepFlow else t

/-- A motion heads to port, from the side of the actuator and the direction (R1, R116). -/
def headsToPort (side : Side) (d : Direction) : Bool :=
  match side, d with
  | .port, .outward | .stbd, .inward => true
  | .port, .inward | .stbd, .outward => false

/-- A motion goes downhill, or is treated so because the heel is not FRESH (R116, R36). A FRESH heel of kind SWITCH that
reads 1 is above a heel_soft of 0: R116 derates there, R36 says a SWITCH never does. DESIGN CHOICE (log entry 43): R116. -/
def downhill (side : Side) (d : Direction) (heel : Option Int) (soft : Nat) : Bool :=
  match heel with
  | none => true
  | some v => if headsToPort side d then decide (v < -(soft : Int)) else decide ((soft : Int) < v)

/-- The heel derating (R116): the larger of the minimum flow and half the target. -/
def derate (f : PropFields) (down : Bool) (t : Nat) : Nat := if down then max f.minFlow (t / 2) else t

/-- The target of an action in motion (R115 to R117): 0 when its position is not FRESH, and the action is then
paused. -/
def targetOf (f : PropFields) (side : Side) (d : Direction) (speed : Nat) (stop : Int) (position heel : Option Int)
    (soft : Nat) : Nat :=
  match position with
  | none => 0
  | some p => derate f (downhill side d heel soft) (creepTarget f d p stop (speedTarget f speed))

/-- The value of a signal, when it is FRESH. -/
def SignalState.freshValue (x : SignalState) : Option Int := if x.fresh then some x.value else none

/-- The heel, when the heel field is present and its signal is FRESH (R36). -/
def State.heel (s : State) : Option Int := s.image.global.heelSignal.bind fun i => (s.signal i).freshValue

/-- The position of a drive, read through the owning hatch's binding, when it is FRESH (R13). -/
def State.position (s : State) (h : Hatch) (f : PropFields) : Option Int :=
  (s.roleSignal h f.posRole).bind SignalState.freshValue

/-- The end role of a direction (R13). -/
def PropFields.endRole (f : PropFields) : Direction → SigRole
  | .outward => f.outEndRole
  | .inward => f.inEndRole

/-- The position stands at or beyond the stop position (R118). -/
def atStop (d : Direction) (position stop : Int) : Bool :=
  match d with
  | .outward => decide (stop ≤ position)
  | .inward => decide (position ≤ stop)

/-- The travel of an action ends (R118): its end switch is FRESH and true, or its position is FRESH and has reached the
stop position. -/
def State.endOfTravel (s : State) (h : Hatch) (f : PropFields) (d : Direction) (stop : Nat) : Bool :=
  s.roleTrue h (f.endRole d) || (s.position h f).any fun p => atStop d p stop

/-- The drive with its target formed anew (R117): an action whose position is not FRESH is paused. -/
def State.reformed (s : State) (h : Hatch) (r : ActRec) (f : PropFields) (d : Drive) : Drive :=
  match d.direction, d.speed, d.stopPosition with
  | some dir, some speed, some stop =>
    { d with
        target := targetOf f r.side dir speed stop (s.position h f) s.heel s.image.global.heelSoft,
        paused := (s.position h f).isNone }
  | _, _, _ => d

/-- The action of an admitted step put in motion, before its end of travel is tested (R114): the commanded flow is
carried on. -/
def Drive.putInMotion (d : Drive) (dir : Direction) (speed stop : Nat) : Drive :=
  { d with state := .inMotion, direction := some dir, speed := some speed, stopPosition := some stop, target := 0,
           paused := false, alloc := 0 }

/-- The drive taken out of motion by a hold or a stop (R120): STOPPING while its commanded flow is above 0, else AT_REST. -/
def Drive.withdrawn (d : Drive) : Drive :=
  if d.state = .inMotion then
    if 0 < d.c then { d with state := .stopping, alloc := 0, target := 0, paused := false } else {}
  else d

/-- The drives of a hatch taken out of motion by a hold or a stop (R120). -/
def State.withdrawDrives (s : State) (l : List ActId) : State :=
  l.foldl (fun s a => s.placeDrive a (s.drive a).withdrawn) s

/-! ### The ramp -/

/-- The commanded flow moved toward the allocation by one ramp tick (R119). -/
def rampStep (f : PropFields) (alloc c : Nat) : Nat :=
  if c < alloc then min (c + f.upStep) alloc else if alloc < c then max (c - f.downStep) alloc else c

/-- A drive at one ramp tick (R119, R120): a STOPPING drive whose commanded flow reaches 0 becomes AT_REST. -/
def Drive.ticked (d : Drive) (f : PropFields) : Drive :=
  match d.state with
  | .atRest => d
  | .inMotion =>
    let c := rampStep f d.alloc d.c
    if c = d.c then d else { d with c := c }.convert f
  | .stopping =>
    let c := rampStep f 0 d.c
    if c = 0 then {} else { d with c := c }.convert f

/-- One drive moved by a ramp tick, its changed code placed in the output image. -/
def State.tickDrive (s : State) (a : ActId) : State :=
  match (s.image.actuator.read a).prop? with
  | some f => s.placeDrive a ((s.drive a).ticked f)
  | none => s

/-- The actuators whose drives are not AT_REST, in ascending id. -/
def State.movingDrives (s : State) : List ActId :=
  (s.dru.drives.entries.filter fun p => p.2.state != .atRest).map (·.1)

/-- Every drive moved by a ramp tick, as one event (R119). -/
def State.tickDrives (s : State) : State := s.movingDrives.foldl State.tickDrive s

/-- Every proportional actuator bound to the hatch has a commanded flow of 0 (R82, R120). -/
def State.drivesAtZero (s : State) (h : Hatch) : Bool := (s.propActs h).all fun a => (s.drive a).c == 0

end Sys2Proof.Machine
end

