-- ==== Sys2Proof/Machine/Conditions.lean ====
section
/-! DEFINITION. The Condition Unit: conditions, condition sets and the current sets of a hatch (chapter 3). -/

namespace Sys2Proof.Machine

/-- The signal a reference reads for the served hatch (R40). -/
def CondRef.resolve (r : CondRef) (hatch : HatchRec) : Option SignalId :=
  match r with
  | .direct i => some i
  | .role x => hatch.signalOf x

/-- The value compared: the magnitude when the abs flag is set (R43). -/
def CondRec.compared (r : CondRec) (v : Int) : Int := if r.abs then (v.natAbs : Int) else v

/-- The comparison of Table 3-2 (R42). -/
def Comparison.holds (c : Comparison) (low high v : Int) : Bool :=
  match c with
  | .eq => v == low
  | .ne => v != low
  | .ge => decide (low ≤ v)
  | .le => decide (v ≤ low)
  | .inside => decide (low ≤ v) && decide (v ≤ high)
  | .outside => decide (v < low) || decide (high < v)

/-- A condition on the signal it reads: false when the signal is not FRESH (R41), else the comparison (R42, R43). -/
def CondRec.holdsOn (r : CondRec) (x : SignalState) : Bool :=
  x.fresh && r.cmp.holds r.low r.high (r.compared x.value)

/-- A condition evaluated for the served hatch: false when its role is absent (R40). -/
def State.condHolds (s : State) (h : Hatch) (c : CondId) : Bool :=
  let r := s.image.condition.read c
  (r.ref.resolve (s.hatchRec h)).any fun i => r.holdsOn (s.signal i)

/-- A condition set holds for the served hatch when every condition of its list does (R45, R46). -/
def State.setHolds (s : State) (h : Hatch) (i : SetId) : Bool := (s.image.setOf i).all (s.condHolds h)

/-- The step record of a hatch's profile (R53). -/
def State.stepRec (s : State) (h : Hatch) (o : Op) (n : StepNo) : StepRec :=
  s.image.stepOf (s.hatchRec h).profile o n

/-- The record of the step a hatch is running, held in or stopping from (R48). -/
def State.currentStep (s : State) (h : Hatch) : Option StepRec :=
  match (s.hatch h).operation, (s.hatch h).step with
  | some o, some n => some (s.stepRec h o n)
  | _, _ => none

/-- The record of the step that the interrupted marker of a hatch names. -/
def State.markedStep (s : State) (h : Hatch) : Option StepRec :=
  (s.hatch h).marker.map fun m => s.stepRec h m.1 m.2

/-- The current sets of a hatch (Table 3-4). Those of a TRIPPED hatch are read on the update events of the node loss
that tripped it, and on no other. -/
def State.currentSets (s : State) (h : Hatch) (tripSetToo : Bool) : List SetId :=
  match (s.hatch h).state, (s.hatch h).phase, s.currentStep h with
  | .running, some .flowWait, some r => [r.holdSet, r.tripSet]
  | .running, _, some r => [r.holdSet, r.tripSet, r.doneSet]
  | .held, _, some r => [r.startSet, r.holdSet, r.tripSet]
  | .stopping, _, some r => [r.tripSet]
  | .tripped, _, _ => if tripSetToo then ((s.markedStep h).map (·.tripSet)).toList else []
  | _, _, _ => []

/-- A condition of the set reads one of the signals, for the hatch (R50). -/
def State.setReads (s : State) (h : Hatch) (signals : List SignalId) (i : SetId) : Bool :=
  (s.image.setOf i).any fun c =>
    ((s.image.condition.read c).ref.resolve (s.hatchRec h)).any fun x => signals.contains x

end Sys2Proof.Machine
end

