-- ==== Sys2Proof/Machine/Flags.lean ====
section
/-! DEFINITION. The sticky flags (R164) and the status byte (R93, R130). -/

namespace Sys2Proof.Machine

/-- The mask of a flag in the flag word (Table 8-11). -/
def Flag.mask (f : Flag) : Word16 := BitVec.ofNat 16 (2 ^ f.bit)

/-- A flag is set in a flag word. -/
def flagIn (w : Word16) (f : Flag) : Bool := w.getLsbD f.bit

/-- A flag is set. -/
def State.flag (s : State) (f : Flag) : Bool := flagIn s.mu.flags f

/-- A flag set by its owning block (R164). -/
def State.setFlag (s : State) (f : Flag) : State := { s with mu := { s.mu with flags := s.mu.flags ||| f.mask } }

/-- The condition that sets a flag again after a clear (Table 11-2). TABLE_CRC is set again while the mode is NO_TABLES,
and in the CONFIG entered from there too, since it ends clear only after a configuration has reached OPERATE (R179):
DEDUCED (log entry 41). -/
def State.flagStands (s : State) : Flag → Bool
  | .nodeLost => s.flc.nodes.toList.any fun r => r.state == .lost
  | .estopActive => s.sl.estop == .active
  | .tableCrc => s.mu.mode == .noTables || s.mu.tableless
  | .cFrameErr | .cOverrun | .cTxOverrun | .fFrameErr | .alertSat | .readbackMismatch | .storeFault | .resetOccurred =>
    false

/-- A node whose saturation ends: run count 0, mark clear (R152). -/
def NodeRecord.endSaturation (r : NodeRecord) : NodeRecord :=
  if r.saturated then { r with saturated := false, alertRun := 0 } else r

/-- The saturation of every saturated node ends (R152). -/
def State.endAllSaturation (s : State) : State :=
  { s with flc := { s.flc with nodes := s.flc.nodes.mapAll NodeRecord.endSaturation } }

/-- A flag set again when the mask names it and its condition still holds. -/
def State.setAgain (s : State) (mask : Word16) (f : Flag) : State :=
  if flagIn mask f && s.flagStands f then s.setFlag f else s

/-- The clearing of the flags a mask names: bits 11 to 15 of the mask are ignored, each cleared flag whose condition
holds is set again, and clearing ALERT_SAT ends every saturation (R164). -/
def State.clearFlags (s : State) (mask : Word16) : State :=
  let cleared : State := { s with mu := { s.mu with flags := s.mu.flags &&& ~~~(mask &&& 0x07FF#16) } }
  let again := ((cleared.setAgain mask .nodeLost).setAgain mask .estopActive).setAgain mask .tableCrc
  if flagIn mask .alertSat then again.endAllSaturation else again

/-- Some hatch is in one of the states (R93). -/
def State.anyHatch (s : State) (p : SeqState → Bool) : Bool := s.hatches.toList.any fun r => p r.state

/-- RUNNING, STOPPING or MANUAL (ANY_RUNNING of R93). -/
def SeqState.countsRunning : SeqState → Bool
  | .running | .stopping | .manual => true
  | .idle | .held | .tripped => false

/-- The status byte of the frames the part originates toward the C-port, as the part stands (R130, Table 8-3). -/
def State.statusByte (s : State) : Byte :=
  byte (packBits
    [s.mu.mode == .storing,
     s.motionEn,
     s.mu.flags != 0,
     s.mu.mode == .config || s.mu.mode == .storing,
     s.ls.lapse,
     s.anyHatch SeqState.countsRunning,
     s.anyHatch (· == .held),
     s.anyHatch (· == .tripped)])

end Sys2Proof.Machine
end

