-- ==== Sys2Proof/Machine/Operands.lean ====
section
/-! DEFINITION. The forms of the payloads (Table 8-4 to Table 8-6): what a frame asks, read from its bytes. -/

namespace Sys2Proof.Machine

/-- Pairs of channel and value, three bytes each (Table 8-4). -/
def parsePairs : List Byte → Option (List (Chan × Nat))
  | [] => some []
  | c :: v1 :: v0 :: rest => do
    let ch ← below 8 c.toNat
    let r ← parsePairs rest
    some ((ch, num16 v1 v0) :: r)
  | _ => none

/-- The pair count, then as many pairs: 1 to 8 (Table 8-4). -/
def parseCounted : List Byte → Option (List (Chan × Nat))
  | p :: rest =>
    if 1 ≤ p.toNat ∧ p.toNat ≤ 8 ∧ rest.length = 3 * p.toNat then parsePairs rest else none
  | [] => none

/-- The bytes of pairs (Table 8-4). -/
def encodePairs (l : List (Chan × Nat)) : List Byte := l.flatMap fun p => byte p.1.val :: be16n p.2

/-- What a FIELD_REQ asks of a node (Table 8-4). -/
inductive FieldReq
  | readInputs
  | writeOutputs (pairs : List (Chan × Nat))
  | readStatus
  deriving DecidableEq, Repr

/-- The function of a request. -/
def FieldReq.fn : FieldReq → Fn
  | .readInputs => .readInputs
  | .writeOutputs _ => .writeOutputs
  | .readStatus => .readStatus

/-- The payload of a FIELD_REQ read (Table 8-4): none when it is not of its form. -/
def parseFieldReq : List Byte → Option FieldReq
  | f :: rest =>
    if f = 1#8 then (if rest = [] then some .readInputs else none)
    else if f = 2#8 then (parseCounted rest).map .writeOutputs
    else if f = 3#8 then (if rest = [] then some .readStatus else none)
    else none
  | [] => none

/-- The payload of a FIELD_REQ (Table 8-4). -/
def FieldReq.payload : FieldReq → List Byte
  | .readInputs => [1#8]
  | .writeOutputs l => 2#8 :: byte l.length :: encodePairs l
  | .readStatus => [3#8]

/-- What a FIELD_REPLY answers (Table 8-4). -/
inductive FieldReply
  | inputs (values : List Word16)
  | outputs (echo : List (Chan × Nat))
  | status (faultWord : Word16)
  deriving DecidableEq, Repr

/-- The function of a reply. -/
def FieldReply.fn : FieldReply → Fn
  | .inputs _ => .readInputs
  | .outputs _ => .writeOutputs
  | .status _ => .readStatus

/-- Values of two bytes each. -/
def parseValues : List Byte → Option (List Word16)
  | [] => some []
  | v1 :: v0 :: rest => (parseValues rest).map (word16 v1 v0 :: ·)
  | [_] => none

/-- The payload of a FIELD_REPLY read (Table 8-4): none when it is not of the form of its function. -/
def parseFieldReply : List Byte → Option FieldReply
  | f :: rest =>
    if f = 1#8 then
      match rest with
      | q :: values =>
        if q.toNat ≤ 16 ∧ values.length = 2 * q.toNat then (parseValues values).map .inputs else none
      | [] => none
    else if f = 2#8 then (parseCounted rest).map .outputs
    else if f = 3#8 then
      match rest with
      | [w1, w0] => some (.status (word16 w1 w0))
      | _ => none
    else none
  | [] => none

/-- The hatches a mask names, ascending: none when bits 0 or 13 to 15 are set (Table 8-5). -/
def parseMask (hi lo : Byte) : Option (List Hatch) :=
  let w := word16 hi lo
  if w &&& 0xE001#16 = 0#16 then some (allHatches.filter fun h => w.getLsbD (h.val + 1)) else none

/-- The operation requests (Table 8-5). -/
inductive OpReq | opening | closing | pause | resume | manualEnter | manualLeave
  deriving DecidableEq, Repr

/-- Table 8-5: OPEN 1 to MANUAL_LEAVE 6. -/
def OpReq.code : OpReq → Nat
  | .opening => 1 | .closing => 2 | .pause => 3 | .resume => 4 | .manualEnter => 5 | .manualLeave => 6

/-- The request of a code. -/
def OpReq.ofCode : Nat → Option OpReq
  | 1 => some .opening | 2 => some .closing | 3 => some .pause | 4 => some .resume | 5 => some .manualEnter
  | 6 => some .manualLeave | _ => none

/-- The payload of an OPERATE read: the request and the hatches named (Table 8-5). -/
def parseOperate : List Byte → Option (OpReq × List Hatch)
  | [r, hi, lo] => do
    let q ← OpReq.ofCode r.toNat
    let hs ← parseMask hi lo
    some (q, hs)
  | _ => none

/-- The payload of a STOP read: the hatches named, all of them when it is empty (Table 8-5). -/
def parseStop : List Byte → Option (List Hatch)
  | [] => some allHatches
  | [hi, lo] => parseMask hi lo
  | _ => none

/-- The payload of a HOLD read (Table 8-5). -/
def parseHold : List Byte → Option (List Hatch)
  | [hi, lo] => parseMask hi lo
  | _ => none

/-- The payload of a KEEP is empty (Table 8-5). -/
def parseKeep (l : List Byte) : Bool := l.isEmpty

/-- The management requests (Table 8-6), their arguments not yet tested. -/
inductive MgmtReq
  | readItem (item index : Nat)
  | writeItem (field value : Nat)
  | clearFlags (mask : Word16)
  | acknowledge (scope : Nat) (hi lo : Byte)
  | enterConfig
  | loadRecord (table index : Nat) (bytes : List Byte)
  | readRecord (table index : Nat)
  | leaveConfig (crc : Word16)
  | resetDevice
  deriving DecidableEq, Repr

/-- Table 8-6: the request codes. -/
def MgmtReq.code : MgmtReq → Nat
  | .readItem _ _ => 1 | .writeItem _ _ => 2 | .clearFlags _ => 3 | .acknowledge _ _ _ => 4 | .enterConfig => 5
  | .loadRecord _ _ _ => 6 | .readRecord _ _ => 7 | .leaveConfig _ => 8 | .resetDevice => 9

/-- The payload of a MGMT_REQ read: the request code and the length its row of Table 8-6 gives, and nothing more
(R134). -/
def parseMgmt : List Byte → Option MgmtReq
  | c :: args =>
    match c.toNat, args with
    | 1, [i, x1, x0] => some (.readItem i.toNat (num16 x1 x0))
    | 2, [f, v1, v0] => some (.writeItem f.toNat (num16 v1 v0))
    | 3, [m1, m0] => some (.clearFlags (word16 m1 m0))
    | 4, [sc, m1, m0] => some (.acknowledge sc.toNat m1 m0)
    | 5, [] => some .enterConfig
    | 6, t :: x1 :: x0 :: bytes => some (.loadRecord t.toNat (num16 x1 x0) bytes)
    | 7, [t, x1, x0] => some (.readRecord t.toNat (num16 x1 x0))
    | 8, [c1, c0] => some (.leaveConfig (word16 c1 c0))
    | 9, [] => some .resetDevice
    | _, _ => none
  | [] => none

end Sys2Proof.Machine
end

