-- ==== Sys2Proof/Machine/Console.lean ====
section
/-! DEFINITION. The Console Port: its queues, the service of the receive queue head, answers and notices (chapter 8). -/

namespace Sys2Proof.Machine

/-! ### The C transmit queue -/

/-- A frame offered to the C transmit queue: it joins the tail, or is discarded with C_TX_OVERRUN when the queue holds 8
(R137). -/
def State.offer (s : State) (t : TxEntry) : State :=
  if s.cp.tx.length < 8 then { s with cp := { s.cp with tx := s.cp.tx ++ [t] } } else s.setFlag .cTxOverrun

/-- Frames offered one after another (R137). -/
def State.offerAll (s : State) (l : List TxEntry) : State := l.foldl State.offer s

/-- A notice (Table 8-9): its code, then its bytes. -/
def notice (dest tag : Byte) (code : Nat) (bytes : List Byte) : TxEntry :=
  .own .notice dest tag (byte code :: bytes) false

/-- The address a REJECT goes to: the frame's source when it is a console, else all consoles (R138). -/
def rejectDest (src : Byte) : Byte :=
  match consoleAt (addrOf src) with
  | some c => c.addr
  | none => 0#8

/-- The REJECT notice of an entry of the receive queue (R128, R138): without an intact header it goes to all consoles
with tag 255 and kind 0. -/
def rejectNotice (e : RxEntry) (reason : RejectReason) : TxEntry :=
  let header : Option Header :=
    match e with
    | .valid f => some { kind := f.kind, dest := f.dest, src := f.src, tag := f.tag }
    | .invalid bytes _ => headerOf bytes
  match header with
  | some x => notice (rejectDest x.src) x.tag 1 [byte reason.code, byte x.kind.code]
  | none => notice 0#8 255#8 1 [byte reason.code, 0#8]

/-- The NOREPLY notice to a console, with its tag, naming the node (R138). -/
def noreplyNotice (c : Console) (tag : Byte) (n : Node) : TxEntry := notice c.addr tag 2 [n.addr]

/-- The BLOCKED notice to a console (R138). -/
def blockedNotice (c : Console) (tag : Byte) (ch : Chan) (reason : BlockReason) : TxEntry :=
  notice c.addr tag 3 [byte ch.val, byte reason.code]

/-- The MANUAL_ENDED notice, with the former owner (R138). -/
def manualEndedNotice (h : Hatch) (owner : Option Console) : TxEntry :=
  notice 0#8 0#8 5 [byte h.number, optByte (owner.map fun c => 48 + c.val)]

/-- The HATCH_EVENT notice of a hatch (R92, Table 8-9): the record as it stands, with the operation, the step and the
detail that the occasion gives. -/
def hatchEventNotice (h : Hatch) (r : HatchStatus) (o : Occasion) (op : Option Op) (n : Option StepNo) (detail : Nat) :
    TxEntry :=
  notice 0#8 0#8 4
    [byte h.number, byte o.code, byte r.state.code, optByte (op.map Op.code), optByte (n.map (·.val)),
     byte r.rest.code, byte detail, optByte (r.owner.map fun c => 48 + c.val)]

/-- The MGMT_REPLY to a frame: to its source, with its tag (R129, R135). -/
def mgmtReply (c : Console) (tag : Byte) (payload : List Byte) : TxEntry := .own .mgmtReply c.addr tag payload false

/-! ### The C receive queue -/

/-- The receiver keeps the first 56 bytes of a run (R127). -/
def keptBytes (l : List Byte) : List Byte := l.take 56

/-- The entry a run of bytes gives (R127, R131). -/
def rxEntryOf (r : Run) : RxEntry :=
  match checkRun r with
  | .valid f => .valid f
  | .invalid reason => .invalid (keptBytes r.bytes) reason

/-- A frame that is not urgent offered to the C receive queue (R132). -/
def State.receive (s : State) (e : RxEntry) : State :=
  if s.cp.rx.length < 8 then { s with cp := { s.cp with rx := s.cp.rx ++ [e] } }
  else
    match e with
    | .valid _ => s.setFlag .cOverrun
    | .invalid _ _ => (s.setFlag .cOverrun).setFlag .cFrameErr

/-- The urgent kinds. -/
inductive Urgent
  | stop (hatches : List Hatch)
  | hold (console : Console) (hatches : List Hatch)
  | keep
  deriving DecidableEq, Repr

/-- The urgent frame a run brings, if it is one: valid, to the part's own address, of kind STOP, HOLD or KEEP, from a
console, its payload of its form (R131). -/
def State.urgentOf (s : State) (r : Run) : Option Urgent :=
  match validFrame r with
  | none => none
  | some f =>
    match consoleAt f.srcAddr with
    | none => none
    | some c =>
      if f.destAddr = addrOf s.ownAddr then
        match f.kind with
        | .stop => (parseStop f.payload).map .stop
        | .hold => (parseHold f.payload).map (.hold c)
        | .keep => if parseKeep f.payload then some .keep else none
        | .fieldReq | .fieldReply | .mgmtReq | .mgmtReply | .operate | .notice | .neutral => none
      else none

/-- The service that the head of the C receive queue asks for (Table 8-2). -/
inductive Service
  | reject (entry : RxEntry) (reason : RejectReason)
  | mgmt (console : Console) (tag : Byte) (request : MgmtReq)
  | operate (console : Console) (tag : Byte) (request : OpReq) (hatches : List Hatch)
  | field (frame : Frame) (console : Console) (node : Node) (request : FieldReq)
  deriving DecidableEq, Repr

/-- A node is in the node map (R148). -/
def TableImage.inMap (im : TableImage) (n : Node) : Bool := (im.node.read n).inMap

/-- The lines of Table 8-2 for a frame to the part's own address, from a console. -/
def ownService (f : Frame) (c : Console) : Service :=
  match f.kind with
  | .mgmtReq =>
    match parseMgmt f.payload with
    | some q => .mgmt c f.tag q
    | none => .reject (.valid f) .badPayload
  | .operate =>
    match parseOperate f.payload with
    | some (q, hs) => .operate c f.tag q hs
    | none => .reject (.valid f) .badPayload
  | .stop | .hold | .keep => .reject (.valid f) .badPayload
  | .fieldReq | .fieldReply | .mgmtReply | .notice | .neutral => .reject (.valid f) .kindMismatch

/-- The lines of Table 8-2 for a frame to a field node, from a console. -/
def fieldService (im : TableImage) (f : Frame) (c : Console) (n : Node) : Service :=
  match f.kind with
  | .fieldReq =>
    match parseFieldReq f.payload with
    | some q => if im.inMap n then .field f c n q else .reject (.valid f) .noNode
    | none => .reject (.valid f) .badPayload
  | .fieldReply | .mgmtReq | .mgmtReply | .operate | .stop | .hold | .keep | .notice | .neutral =>
    .reject (.valid f) .kindMismatch

/-- The checks of Table 8-2, in order (R134). -/
def State.serviceFor (s : State) (e : RxEntry) : Service :=
  match e with
  | .invalid _ reason => .reject e reason
  | .valid f =>
    match consoleAt f.srcAddr with
    | none => .reject e .badSource
    | some c =>
      if f.destAddr = addrOf s.ownAddr then ownService f c
      else
        match nodeAt f.destAddr with
        | some n => fieldService s.image f c n
        | none => .reject e .badDestination

/-- The service of the head (R133): none while the queue is empty, while a FIELD_REQ for the Traffic Filter waits for
room in the F forward queue, and from the acceptance of a RESET_DEVICE (R170). -/
def State.headService (s : State) : Option Service :=
  match s.mu.resetPhase, s.cp.rx with
  | .inactive, e :: _ =>
    match s.serviceFor e with
    | .field f c n q => if s.flc.forward.length < 8 then some (.field f c n q) else none
    | sv => some sv
  | _, _ => none

/-- The frame has left the queue at the end of its service (R133). -/
def State.dropHead (s : State) : State := { s with cp := { s.cp with rx := s.cp.rx.tail } }

/-! ### The transmitter -/

/-- The bytes of a frame as its transmission begins: the status byte and the CRC of a frame the part originates are
built then (R130, R137). -/
def State.txBytes (s : State) : TxEntry → List Byte
  | .own kind dest tag payload _ =>
    ({ kind := kind, dest := dest, src := s.ownAddr, tag := tag, status := s.statusByte, payload := payload } :
      Frame).encode
  | .forwarded f => f.encode

/-- The frame is the DONE reply of an accepted RESET_DEVICE. -/
def TxEntry.marksReset : TxEntry → Bool
  | .own _ _ _ _ r => r
  | .forwarded _ => false

end Sys2Proof.Machine
end

