-- ==== Sys2Proof/Machine/Filter.lean ====
section
/-! DEFINITION. The Traffic Filter: the verdict on console writes, clamps, forwarding, shadows and neutralising
(chapter 10). -/

namespace Sys2Proof.Machine

/-- The frame is FIELD_REQ WRITE_OUTPUTS with these pairs, else none. -/
def framePairs (f : Frame) : List (Chan × Nat) :=
  match parseFieldReq f.payload with
  | some (.writeOutputs l) => l
  | _ => []

/-- The reason a write pair to a GUARDED channel is blocked in a device mode (lines 3 of Table 10-2). -/
def Mode.blocksGuarded : Mode → Bool
  | .config | .storing => true
  | .noTables | .operate => false

/-- The judgement of one pair (Table 10-2): the reason it is blocked, or none when it passes. -/
def State.blockReason (s : State) (n : Node) (c : Console) (ch : Chan) : Option BlockReason :=
  let r := s.image.chan n ch
  match r.cls with
  | .owned => some .owned
  | .free => none
  | .guarded =>
    if s.mu.mode.blocksGuarded then some .mode
    else if (s.hatch r.hatch).state ≠ .manual then some .notManual
    else if (s.hatch r.hatch).owner ≠ some c then some .notOwner
    else if !(s.window r.hatch).isLive then some .holdLapsed
    else if !s.setHolds r.hatch r.permit then some .permitFailed
    else none

/-- The first blocked pair of a frame, with its reason (R156). -/
def State.firstBlocked (s : State) (n : Node) (c : Console) (pairs : List (Chan × Nat)) :
    Option (Chan × BlockReason) :=
  pairs.findSome? fun p => (s.blockReason n c p.1).map fun r => (p.1, r)

/-- The clamp of a GUARDED pair that passes (R157). -/
def clampValue (r : ChanRec) (v : Nat) : Nat :=
  match r.kind with
  | .proportional => max (2048 - r.span) (min v (2048 + r.span))
  | .binary => if v ≤ 2 then v else 0

/-- A pair as it is forwarded: clamped when its channel is GUARDED (R157). -/
def TableImage.clampPair (im : TableImage) (n : Node) (p : Chan × Nat) : Chan × Nat :=
  if (im.chan n p.1).cls = .guarded then (p.1, clampValue (im.chan n p.1) p.2) else p

/-- The frame as it is forwarded: only the payload is rewritten, the CRC follows from the bytes (R157). -/
def TableImage.clampFrame (im : TableImage) (n : Node) (f : Frame) (pairs : List (Chan × Nat)) : Frame :=
  { f with payload := (FieldReq.writeOutputs (pairs.map (im.clampPair n))).payload }

/-- The shadow and the image value of a GUARDED channel take the forwarded value; no dirty mark is set, since the frame
itself carries the value to the node (R158). -/
def State.takeShadow (s : State) (n : Node) (p : Chan × Nat) : State :=
  if (s.image.chan n p.1).cls = .guarded then
    (s.setShadow n p.1 p.2).setOutChan n p.1 { s.outChan n p.1 with value := p.2 }
  else s

/-- A frame placed at the tail of the F forward queue (R158). -/
def State.forward (s : State) (f : Frame) : State :=
  { s with flc := { s.flc with forward := s.flc.forward ++ [f] } }

/-- The judgement of a console FIELD_REQ (R156): the frame is forwarded, clamped and forwarded, or blocked with a
notice. -/
def State.judge (s : State) (f : Frame) (c : Console) (n : Node) (q : FieldReq) : State :=
  match q with
  | .readInputs | .readStatus => s.forward f
  | .writeOutputs pairs =>
    match s.firstBlocked n c pairs with
    | some (ch, reason) => s.offer (blockedNotice c f.tag ch reason)
    | none =>
      let sent := pairs.map (s.image.clampPair n)
      sent.foldl (fun s p => s.takeShadow n p) (s.forward (s.image.clampFrame n f pairs))

/-! ### Neutralising a hatch -/

/-- The GUARDED channels of a hatch, with their nodes, in ascending order. -/
def TableImage.guardedOf (im : TableImage) (h : Hatch) : List (Node × Chan) :=
  im.node.entries.flatMap fun p =>
    (p.2.chans.entries.filter fun c => c.2.cls == .guarded && c.2.hatch == h).map fun c => (p.1, c.1)

/-- The first channel of the hatch that a queued frame writes (R159). -/
def TableImage.writesGuarded (im : TableImage) (h : Hatch) (f : Frame) : Option (Node × Chan) :=
  match nodeAt f.destAddr with
  | none => none
  | some n =>
    ((framePairs f).find? fun p => (im.chan n p.1).cls == .guarded && (im.chan n p.1).hatch == h).map
      fun p => (n, p.1)

/-- A GUARDED channel written neutral in the output image, and its shadow with it (R159). -/
def State.neutralChan (s : State) (n : Node) (c : Chan) : State :=
  (s.writeOut n c (s.image.neutralOf n c)).setShadow n c (s.image.neutralOf n c)

/-- The GUARDED channels of other hatches that a removed frame had set are written neutral (R159). -/
def State.undoRemoved (s : State) (h : Hatch) (f : Frame) : State :=
  match nodeAt f.destAddr with
  | none => s
  | some n =>
    (framePairs f).foldl
      (fun s p =>
        if (s.image.chan n p.1).cls = .guarded ∧ (s.image.chan n p.1).hatch ≠ h then s.neutralChan n p.1 else s) s

/-- One queued frame met by the neutralising of a hatch: it stays, or is removed with a BLOCKED notice (R159). -/
def Ev.sweepFrame (h : Hatch) (reason : BlockReason) (e : Ev) (f : Frame) : Ev :=
  match e.st.image.writesGuarded h f, consoleAt f.srcAddr with
  | some (_, ch), some c => (e.mod fun s => s.undoRemoved h f).note h (blockedNotice c f.tag ch reason)
  | _, _ => e

/-- The frames of the F forward queue that the neutralising of a hatch leaves. -/
def State.sweptForward (s : State) (h : Hatch) : List Frame :=
  s.flc.forward.filter fun f => (s.image.writesGuarded h f).isNone

/-- The GUARDED channels of the hatch whose shadow is not neutral written neutral, with their shadows (R159). -/
def State.neutralShadows (s : State) (h : Hatch) : State :=
  (s.image.guardedOf h).foldl
    (fun s p => if s.shadow p.1 p.2 = s.image.neutralOf p.1 p.2 then s else s.neutralChan p.1 p.2) s

/-- The Traffic Filter neutralises a hatch (R159): its queued writes are removed, and its GUARDED channels with their
shadows become neutral. The BLOCKED notices of several frames removed are offered from the head of the F forward queue to
its tail: DESIGN CHOICE (log entry 52). -/
def Ev.neutralise (e : Ev) (h : Hatch) (reason : BlockReason) : Ev :=
  let swept := e.st.flc.forward.foldl (Ev.sweepFrame h reason) e
  (swept.mod fun s => { s with flc := { s.flc with forward := s.sweptForward h } }).mod fun s => s.neutralShadows h

/-! ### Judging the queue again -/

/-- One queued frame judged again after its NODE record changed (R161): it stays, or is removed with a NOREPLY or a
BLOCKED notice. -/
def State.rejudge (s : State) (n : Node) (f : Frame) : Option TxEntry :=
  match nodeAt f.destAddr, consoleAt f.srcAddr with
  | some m, some c =>
    if m = n then
      if s.image.inMap n then
        (s.firstBlocked n c (framePairs f)).map fun b => blockedNotice c f.tag b.1 b.2
      else some (noreplyNotice c f.tag n)
    else none
  | _, _ => none

/-- The frames queued for a node judged again (R161). The notices of several frames removed are offered from the head of
the queue to its tail: DESIGN CHOICE (log entry 52). -/
def State.rejudgeQueue (s : State) (n : Node) : State :=
  let notices := s.flc.forward.filterMap (s.rejudge n)
  let kept := s.flc.forward.filter fun f => (s.rejudge n f).isNone
  ({ s with flc := { s.flc with forward := kept } } : State).offerAll notices

end Sys2Proof.Machine
end

