-- ==== Sys2Proof/Machine/Flow.lean ====
section
/-! DEFINITION. The Flow Allocator: sums, the admission test, allocations, joining and leaving (chapter 6). Shedding and
the admission pass, which reach the sequencers, are in Admission.lean. -/

namespace Sys2Proof.Machine

/-! ### Sums -/

/-- The sum of minimum flows of a list of actions. -/
def minSum (l : List (ActId × Nat)) : Nat := (l.map (·.2)).sum

/-- The step's minimum m_step (R95). -/
def FlowRequest.mStep (r : FlowRequest) : Nat := minSum r.actions

/-- The hatch of a unit. -/
def FlowUnit.hatch : FlowUnit → Hatch
  | .step r _ => r.hatch
  | .manual h _ => h

/-- What a unit adds to B: its binary demand, or its reservation (R97). -/
def FlowUnit.binary : FlowUnit → Nat
  | .step r _ => r.dStep
  | .manual _ v => v

/-- The actions of a unit still in motion. -/
def FlowUnit.inMotion : FlowUnit → List (ActId × Nat)
  | .step _ l => l
  | .manual _ _ => []

/-- B, the admitted binary demand (R97). -/
def FlowAllocator.demand (f : FlowAllocator) : Nat := (f.units.map FlowUnit.binary).sum

/-- Every action in motion, with its minimum flow, in the order of the admission list. -/
def FlowAllocator.motion (f : FlowAllocator) : List (ActId × Nat) := f.units.flatMap FlowUnit.inMotion

/-- The admitted minimum (R97). -/
def FlowAllocator.minimum (f : FlowAllocator) : Nat := minSum f.motion

/-- The admission list fits A (R107). -/
def FlowAllocator.listFits (f : FlowAllocator) : Bool := decide (f.demand + f.minimum ≤ f.avail)

/-- A request fits (R98). While A is 0 no request is admitted (R110). -/
def FlowAllocator.fits (f : FlowAllocator) (r : FlowRequest) : Bool :=
  decide (0 < f.avail) &&
    (decide (f.demand + f.minimum + r.dStep + r.mStep ≤ f.avail) || (r.dStep == 0 && r.mStep == 0))

/-- A manual reservation can be admitted at once (R101): one of 0 always can. -/
def FlowAllocator.reservationFits (f : FlowAllocator) (v : Nat) : Bool :=
  v == 0 || (decide (f.demand + f.minimum + v ≤ f.avail) && f.queue.isEmpty)

/-! ### The available flow -/

/-- A pump counts as running: its running signal is FRESH and true (R33). -/
def State.pumpRuns (s : State) (p : PumpRec) : Bool := p.running.any fun i => (s.signal i).freshTrue

/-- A_raw: the rated flows of the pumps that count as running (R34). -/
def State.rawFlow (s : State) : Nat :=
  ((s.image.pump.toList.filter s.pumpRuns).map (·.rated)).sum

/-- The available flow computed from the pumps and the reserve (R34). -/
def State.computedAvail (s : State) : Nat := s.rawFlow - s.image.global.reserve

/-! ### Allocations -/

/-- The inputs of R105: each action in motion with its minimum flow, its target and its paused mark. -/
structure Share where
  act : ActId
  m : Nat
  t : Nat
  paused : Bool
  deriving DecidableEq, Repr

/-- The actions in motion with their targets. -/
def State.shares (s : State) : List Share :=
  s.fa.motion.map fun p => { act := p.1, m := p.2, t := (s.drive p.1).target, paused := (s.drive p.1).paused }

/-- The allocation of one action (R105). `P` is the flow to share, `T` and `S` the sums of the targets and of the minima
of the actions that are not paused. -/
def shareAlloc (P T S : Nat) (x : Share) : Nat :=
  if x.paused then 0
  else if T ≤ P then x.t
  else x.m + (x.t - x.m) * (P - S) / (T - S)

/-- The allocations of R105, from A, B and the actions in motion. -/
def allocations (avail demand : Nat) (l : List Share) : List (ActId × Nat) :=
  let running := l.filter fun x => !x.paused
  let P := avail - demand - ((l.filter (·.paused)).map (·.m)).sum
  let T := (running.map (·.t)).sum
  let S := (running.map (·.m)).sum
  l.map fun x => (x.act, shareAlloc P T S x)

/-- The allocation of an actuator's drive set. -/
def State.setAlloc (s : State) (p : ActId × Nat) : State := s.setDrive p.1 { s.drive p.1 with alloc := p.2 }

/-- Every allocation recomputed (R105, R106). -/
def State.reallocate (s : State) : State := (allocations s.fa.avail s.fa.demand s.shares).foldl State.setAlloc s

/-- The unallocated flow: A less B less the sum of all allocations (R112). -/
def State.unallocated (s : State) : Nat :=
  s.fa.avail - s.fa.demand - ((s.fa.motion.map fun p => (s.drive p.1).alloc).sum)

/-! ### Joining and leaving -/

/-- The Flow Allocator's state changed. -/
def State.modFa (s : State) (f : FlowAllocator → FlowAllocator) : State := { s with fa := f s.fa }

/-- A request takes its place at the tail of the flow queue: behind every entry that stood there before the event, and
among the entries of the hatches `joined` in the event by ascending hatch number (R96). -/
def joinQueue (joined : List Hatch) (r : FlowRequest) : List FlowRequest → List FlowRequest
  | [] => [r]
  | x :: rest =>
    if joined.contains x.hatch && decide (r.hatch < x.hatch) then r :: x :: rest else x :: joinQueue joined r rest

/-- A request joins the tail of the flow queue (R96); joining an empty queue calls for a pass (R99). -/
def Ev.join (e : Ev) (r : FlowRequest) : Ev :=
  let e' := (e.mod fun s => s.modFa fun f => { f with queue := joinQueue e.joined r f.queue }).noteJoin r.hatch
  if e.st.fa.queue.isEmpty then e'.wantPass else e'

/-- The request of a hatch leaves the flow queue without being admitted; when it stood at the head a pass follows
(R103). -/
def Ev.withdrawRequest (e : Ev) (h : Hatch) : Ev :=
  let e' := e.mod fun s => s.modFa fun f => { f with queue := f.queue.filter fun r => r.hatch != h }
  match e.st.fa.queue with
  | r :: _ => if r.hatch = h then e'.wantPass else e'
  | [] => e'

/-- The unit of a hatch leaves the admission list, and a pass follows (R102). -/
def Ev.releaseUnit (e : Ev) (h : Hatch) : Ev :=
  if e.st.fa.units.any fun u => u.hatch == h then
    (e.mod fun s => s.modFa fun f => { f with units := f.units.filter fun u => u.hatch != h }).wantPass
  else e

/-- Both: the hatch's request or its unit is withdrawn. -/
def Ev.withdrawFlow (e : Ev) (h : Hatch) : Ev := (e.withdrawRequest h).releaseUnit h

/-- A unit without one of its actions in motion. -/
def FlowUnit.without (a : ActId) : FlowUnit → FlowUnit
  | .step r l => .step r (l.filter fun p => p.1 != a)
  | .manual h v => .manual h v

/-- A proportional action ends: its minimum is released and a pass follows (R102, R118). -/
def Ev.endAction (e : Ev) (a : ActId) : Ev :=
  (e.mod fun s => s.modFa fun f => { f with units := f.units.map (FlowUnit.without a) }).wantPass

end Sys2Proof.Machine
end

