-- ==== Sys2Proof/Machine/Sequencer.lean ====
section
/-! DEFINITION. The Hatch Sequencers: step entry, holds, stops, trips, admission and the end of a step (chapter 5). -/

namespace Sys2Proof.Machine

/-! ### The actions of a step, resolved -/

/-- The binary actions of a step, each with the value it writes (R11, R56). -/
def State.stepBinary (s : State) (h : Hatch) (r : StepRec) : List (ActId × Nat) :=
  r.actionList.filterMap fun x =>
    match x.command with
    | .sideA => ((s.hatchRec h).actuatorOf x.role).map fun a => (a, 1)
    | .sideB => ((s.hatchRec h).actuatorOf x.role).map fun a => (a, 2)
    | .outTo _ _ | .inTo _ _ => none

/-- A proportional action, resolved to its actuator (R57). -/
structure DriveAction where
  act : ActId
  dir : Direction
  speed : Nat
  stop : Nat
  deriving DecidableEq, Repr

/-- The proportional actions of a step, resolved (R55, R57), in the order of the action slots. That order has no effect
(R55) but on the listing of a unit's actions in item 7, which the manual leaves open: DESIGN CHOICE (log entry 44). -/
def State.stepDrives (s : State) (h : Hatch) (r : StepRec) : List DriveAction :=
  r.actionList.filterMap fun x =>
    match x.command with
    | .outTo v p =>
      ((s.hatchRec h).actuatorOf x.role).map fun a => { act := a, dir := .outward, speed := v, stop := p }
    | .inTo v p =>
      ((s.hatchRec h).actuatorOf x.role).map fun a => { act := a, dir := .inward, speed := v, stop := p }
    | .sideA | .sideB => none

/-- The minimum flow of an actuator (R12). -/
def TableImage.minFlow (im : TableImage) (a : ActId) : Nat := ((im.actuator.read a).prop?.map (·.minFlow)).getD 0

/-- The demand of an actuator (R11). -/
def TableImage.demand (im : TableImage) (a : ActId) : Nat := (im.actuator.read a).demand?.getD 0

/-- The flow request of a step (R95). -/
def State.flowRequest (s : State) (h : Hatch) (r : StepRec) : FlowRequest :=
  { hatch := h,
    dStep := ((s.stepBinary h r).map fun p => s.image.demand p.1).sum,
    actions := (s.stepDrives h r).map fun d => (d.act, s.image.minFlow d.act) }

/-- The channel of a binary actuator written (R11, R56). -/
def State.writeBinary (s : State) (p : ActId × Nat) : State :=
  s.writeOut (s.image.actuator.read p.1).node (s.image.actuator.read p.1).channel p.2

/-- The commanded values of the binary actions written. -/
def State.driveBinary (s : State) (l : List (ActId × Nat)) : State := l.foldl State.writeBinary s

/-- The channels of binary actuators written neutral (R56). -/
def State.neutralBinary (s : State) (l : List ActId) : State := s.driveBinary (l.map fun a => (a, 0))

/-- Every binary channel of the hatch's current step written neutral (R56). -/
def State.neutralStep (s : State) (h : Hatch) : State :=
  match s.currentStep h with
  | some r => s.neutralBinary ((s.stepBinary h r).map (·.1))
  | none => s

/-! ### Changes of one record -/

/-- The status record of a hatch changed within the event. -/
def Ev.modHatch (e : Ev) (h : Hatch) (f : HatchStatus → HatchStatus) : Ev := e.mod fun s => s.modHatch h f

/-- The hold window of a hatch set within the event. -/
def Ev.setWindow (e : Ev) (h : Hatch) (w : Window) : Ev := e.mod fun s => s.setWindow h w

/-- The operation and step a record names (for the marker). -/
def HatchStatus.here (r : HatchStatus) : Option (Op × StepNo) :=
  match r.operation, r.step with
  | some o, some n => some (o, n)
  | _, _ => none

/-- The record with its timers discarded, its phase absent and its hold sets empty. -/
def HatchStatus.quiet (r : HatchStatus) : HatchStatus :=
  { r with phase := none, stepTimer := none, settleTimer := none, active := {}, latched := {}, history := {} }

/-- The record of a hatch that has returned to IDLE (R70). -/
def HatchStatus.idled (r : HatchStatus) : HatchStatus :=
  { r.quiet with state := .idle, operation := none, step := none, owner := none, request := none }

/-! ### Trips -/

/-- The record at the entry to TRIPPED (R86). -/
def HatchStatus.trippedWith (r : HatchStatus) (causes : TripSet) : HatchStatus :=
  { r.quiet with
      state := .tripped, trips := causes, firstTrip := causes.first, request := none,
      marker := if r.state = .manual then r.marker else r.here }

/-- The notice of a trip, with the first cause and the marker (Table 5-6). -/
def tripNotice (h : Hatch) (r : HatchStatus) : TxEntry :=
  hatchEventNotice h r .tripped (r.marker.map (·.1)) (r.marker.map (·.2)) ((r.firstTrip.map TripCause.code).getD 0)

/-- A hatch goes to TRIPPED (R86). -/
def Ev.tripEntry (e : Ev) (h : Hatch) (causes : TripSet) : Ev :=
  let manual := (e.st.hatch h).state == .manual
  let e1 := e.modHatch h fun r => r.trippedWith causes
  let e2 := e1.mod fun s => (s.restDrives (s.propActs h)).neutralBinary (s.binaryActs h)
  let e3 := if manual then e2.neutralise h .notManual else e2
  let e4 := (e3.withdrawFlow h).setWindow h .stopped
  e4.note h (tripNotice h (e4.st.hatch h))

/-- Trip causes reach a hatch (R85): they trip it, are added to the causes of a TRIPPED hatch (R87), and have no effect
on an IDLE one. -/
def Ev.trip (e : Ev) (h : Hatch) (causes : TripSet) : Ev :=
  match (e.st.hatch h).state with
  | .idle => e
  | .tripped => e.modHatch h fun r => { r with trips := r.trips.union causes }
  | .running | .held | .stopping | .manual => e.tripEntry h causes

/-! ### Holds -/

/-- The record at the entry to HELD (R77). -/
def HatchStatus.heldWith (r : HatchStatus) (rec : HatchRec) (causes : HoldSet) : HatchStatus :=
  { r.quiet with state := .held, active := causes, latched := rec.latches causes, history := causes }

/-- A hold cause becomes active in HELD (R78): one that is already active is not added a second time. -/
def HatchStatus.addHold (r : HatchStatus) (rec : HatchRec) (c : HoldCause) : HatchStatus :=
  if r.active.has c then r
  else
    { r with
        active := r.active.set true c, latched := r.latched.union (rec.latches c.only),
        history := r.history.set true c }

/-- A hatch goes to HELD (R77). -/
def Ev.enterHeld (e : Ev) (h : Hatch) (causes : HoldSet) : Ev :=
  let e1 := e.withdrawFlow h
  let e2 := e1.mod fun s => (s.neutralStep h).withdrawDrives (s.propActs h)
  let e3 := e2.modHatch h fun r => r.heldWith (e.st.hatchRec h) causes
  match e3.st.currentStep h with
  | none => e3
  | some r =>
    if !e3.st.setHolds h r.tripSet then e3.trip h TripCause.tripCondition.only
    else if !e3.st.setHolds h r.startSet || !e3.st.setHolds h r.holdSet then
      e3.modHatch h fun x => x.addHold (e.st.hatchRec h) .condition
    else e3

/-! ### Step entry -/

/-- The trip causes found at the entry of a step (R71, R85). -/
def State.entryTrips (s : State) (h : Hatch) (r : StepRec) : TripSet :=
  { tripCondition := !s.setHolds h r.tripSet, nodeLost := s.boundLost h, localEstop := s.roleTrue h .localEstop }

/-- The hold causes found at the entry of a step, HOLD_LAPSE apart (R71). -/
def State.entryHolds (s : State) (h : Hatch) (r : StepRec) : HoldSet :=
  { condition := !s.setHolds h r.startSet || !s.setHolds h r.holdSet, nodeFault := s.boundFault h,
    linkLapse := s.ls.lapse }

/-- The hold window at the entry of a step (R165): started afresh when an attended step follows one that is not,
unchanged when it follows an attended one, stopped at a step that is not attended. -/
def Ev.entryWindow (e : Ev) (h : Hatch) (attended prevAttended : Bool) : Ev :=
  if !attended then e.setWindow h .stopped
  else if prevAttended then e
  else e.mod fun s => s.startWindow h

/-- A step is entered (R71): TRIPPED, HELD, or RUNNING in phase FLOW_WAIT with its request at the tail of the flow
queue. -/
def Ev.enterStep (e : Ev) (h : Hatch) (o : Op) (n : StepNo) (prevAttended : Bool) : Ev :=
  let r := e.st.stepRec h o n
  let e1 := e.modHatch h fun x => { x with state := .running, operation := some o, step := some n, phase := none }
  let e2 := e1.entryWindow h r.attended prevAttended
  let trips := e2.st.entryTrips h r
  let holds := e2.st.entryHolds h r
  if !trips.isEmpty then e2.tripEntry h trips
  else if !holds.isEmpty then e2.enterHeld h holds
  else if r.attended && e2.st.window h == .lapsed then e2.enterHeld h HoldCause.holdLapse.only
  else (e2.modHatch h fun x => { x with phase := some .flowWait }).join (e2.st.flowRequest h r)

/-- A held hatch resumes: its sets are emptied and its current step is entered again (R81). -/
def Ev.resume (e : Ev) (h : Hatch) (k : ResumeKind) : Ev :=
  let r := e.st.hatch h
  match r.operation, r.step with
  | some o, some n =>
    (e.modHatch h fun x => { x.quiet with lastResume := some (k, x.history) }).enterStep h o n
      (e.st.stepRec h o n).attended
  | _, _ => e

/-- A hold cause stops being active in HELD (R78): the hatch resumes when both its sets are then empty (R81). -/
def Ev.removeHold (e : Ev) (h : Hatch) (c : HoldCause) : Ev :=
  let r := e.st.hatch h
  if r.state = .held ∧ r.active.has c = true then
    let e' := e.modHatch h fun x => { x with active := x.active.set false c }
    if (r.active.set false c).isEmpty && r.latched.isEmpty then e'.resume h .auto else e'
  else e

/-- A hold cause becomes active (R78): a RUNNING hatch goes to HELD, a HELD one takes the cause into its sets. -/
def Ev.hold (e : Ev) (h : Hatch) (c : HoldCause) : Ev :=
  match (e.st.hatch h).state with
  | .running => e.enterHeld h c.only
  | .held => e.modHatch h fun r => r.addHold (e.st.hatchRec h) c
  | .idle | .stopping | .tripped | .manual => e

/-! ### Starting a sequence -/

/-- The step at which a sequence starts, from the interrupted marker (R63, R64, R68). -/
def State.startStep (s : State) (h : Hatch) (o : Op) : StepNo :=
  match (s.hatch h).marker with
  | none => 0
  | some (mo, mn) =>
    if mo = o then (s.stepRec h mo mn).reentry.getD mn else (s.stepRec h mo mn).reverse.getD 0

/-- An accepted OPEN or CLOSE (R68): the owner, the hold window, the starting step and its entry. -/
def Ev.startSequence (e : Ev) (h : Hatch) (o : Op) (c : Console) : Ev :=
  let e1 := e.modHatch h fun r => { r with operation := some o, owner := some c }
  let e2 := e1.mod fun s => s.startWindow h
  e2.enterStep h o (e.st.startStep h o) false

/-- The tests an OPEN or CLOSE meets in IDLE (R68): the refusal, if there is one. -/
def State.startRefusal (s : State) : Option OpResult :=
  if !s.motionEn then some .refusedMotion else if s.ls.lapse then some .refusedLink else none

/-- The request of the pending slot, at the end of the stop (R84). -/
def Ev.startPending (e : Ev) (h : Hatch) (o : Op) (c : Console) : Ev :=
  match e.st.startRefusal with
  | some res =>
    e.note h (hatchEventNotice h (e.st.hatch h) .pendingDiscarded (e.st.hatch h).operation (e.st.hatch h).step res.code)
  | none =>
    let e' := e.startSequence h o c
    e'.note h (hatchEventNotice h (e'.st.hatch h) .pendingStarted (some o) (some (e.st.startStep h o)) 0)

/-! ### Stopping -/

/-- The stop ends (R83): IDLE with the marker set, a STOPPED notice, and the pending request started or discarded. -/
def Ev.stopEnd (e : Ev) (h : Hatch) : Ev :=
  let r := e.st.hatch h
  let e1 := (e.modHatch h fun x => { x.idled with marker := x.here }).setWindow h .stopped
  let m := r.here
  let e2 := e1.note h (hatchEventNotice h (e1.st.hatch h) .stopped (m.map (·.1)) (m.map (·.2)) 0)
  match r.request with
  | some (o, c) => e2.startPending h o c
  | none => e2

/-- The stop of a STOPPING hatch ends when every proportional actuator bound to it has a commanded flow of 0 (R82). -/
def Ev.checkStop (e : Ev) (h : Hatch) : Ev :=
  if (e.st.hatch h).state = .stopping ∧ e.st.drivesAtZero h = true then e.stopEnd h else e

/-- A hatch goes to STOPPING from RUNNING or HELD, its pending slot holding `request` (R82, R83). -/
def Ev.enterStopping (e : Ev) (h : Hatch) (request : Option (Op × Console)) : Ev :=
  let e1 := e.mod fun s => (s.neutralStep h).withdrawDrives (s.propActs h)
  let e2 := (e1.withdrawFlow h).setWindow h .stopped
  let e3 := e2.modHatch h fun r => { r.quiet with state := .stopping, request := request }
  match e3.st.currentStep h with
  | none => e3.checkStop h
  | some r => if !e3.st.setHolds h r.tripSet then e3.trip h TripCause.tripCondition.only else e3.checkStop h

/-! ### The end of a step -/

/-- The operation is complete (R76). -/
def Ev.complete (e : Ev) (h : Hatch) : Ev :=
  let r := e.st.hatch h
  let e1 := (e.modHatch h fun x => { x.idled with marker := none }).setWindow h .stopped
  e1.note h (hatchEventNotice h (e1.st.hatch h) .completed r.operation r.step 0)

/-- The number after a step, when there is one. -/
def nextStep (n : StepNo) : Option StepNo := below 24 (n.val + 1)

/-- The step ends (R75): its drives leave motion, its admission is released, and the next step is entered or the
operation completes. -/
def Ev.stepEnd (e : Ev) (h : Hatch) : Ev :=
  let r := e.st.hatch h
  let e1 := e.mod fun s => s.restDrives ((s.propActs h).filter fun a => (s.drive a).state == .inMotion)
  let e2 := (e1.modHatch h fun x => { x with phase := none, stepTimer := none, settleTimer := none }).releaseUnit h
  match r.operation, r.step with
  | some o, some n =>
    let rec' := e.st.stepRec h o n
    match rec'.last, nextStep n with
    | false, some k => e2.enterStep h o k rec'.attended
    | _, _ => e2.complete h
  | _, _ => e2

/-- The done set holds in ACTING (R73): SETTLING, or the end of the step when the settle time is 0 (R59). -/
def Ev.settle (e : Ev) (h : Hatch) (r : StepRec) : Ev :=
  let e1 := e.mod fun s => s.neutralBinary ((s.stepBinary h r).map (·.1))
  let e2 := e1.modHatch h fun x => { x with phase := some .settling, settleTimer := some r.settle }
  if r.settle = 0 then e2.stepEnd h else e2

/-- The done set fails in SETTLING (R73): ACTING again, the binary actions driven again. -/
def Ev.unsettle (e : Ev) (h : Hatch) (r : StepRec) : Ev :=
  (e.mod fun s => s.driveBinary (s.stepBinary h r)).modHatch h fun x =>
    { x with phase := some .acting, settleTimer := none }

/-- The verdict on the done set decides the phase (R73). -/
def Ev.doneVerdict (e : Ev) (h : Hatch) (r : StepRec) : Ev :=
  match (e.st.hatch h).phase, e.st.setHolds h r.doneSet with
  | some .acting, true => e.settle h r
  | some .settling, false => e.unsettle h r
  | _, _ => e

/-! ### Admission -/

/-- A proportional action put in motion at admission (R114): it ends at once when its end of travel holds, else its
target is formed. -/
def Ev.startAction (h : Hatch) (e : Ev) (d : DriveAction) : Ev :=
  let r := e.st.image.actuator.read d.act
  match r.prop? with
  | none => e
  | some f =>
    let moving := (e.st.drive d.act).putInMotion d.dir d.speed d.stop
    let e1 := e.mod fun s => s.setDrive d.act moving
    if e1.st.endOfTravel h f d.dir d.stop then (e1.mod fun s => s.restDrive d.act).endAction d.act
    else (e1.mod fun s => s.setDrive d.act (s.reformed h r f moving)).wantRealloc

/-- The record is RUNNING in FLOW_WAIT, the one place where a hatch has an entry in the flow queue (R96). -/
def HatchStatus.waiting (r : HatchStatus) : Bool := r.state == .running && r.phase == some .flowWait

/-- The record is RUNNING in ACTING or SETTLING, where a hatch has a step unit and the step timer runs (R97, R60). -/
def HatchStatus.admitted (r : HatchStatus) : Bool :=
  r.state == .running && (r.phase == some .acting || r.phase == some .settling)

/-- The step of a hatch that waits for flow. -/
def State.waitingStep (s : State) (h : Hatch) : Option StepRec :=
  if (s.hatch h).waiting then s.currentStep h else none

/-- The sequencer takes the admission of its request as an event of its own (R72, R99): a request that joins the flow
queue at it stands behind those that joined before it (log entry 49). -/
def Ev.admitted (e : Ev) (h : Hatch) : Ev :=
  match e.st.waitingStep h with
  | none => e
  | some r =>
    let e1 := e.joinsAnew.modHatch h fun x => { x with phase := some .acting, stepTimer := some (r.timeout * 100) }
    if !e1.st.setHolds h r.tripSet then e1.trip h TripCause.tripCondition.only
    else if !e1.st.setHolds h r.holdSet then e1.enterHeld h HoldCause.condition.only
    else
      let done := e1.st.setHolds h r.doneSet
      let e2 := e1.mod fun s => s.driveBinary (s.stepBinary h r)
      let e3 := (e1.st.stepDrives h r).foldl (Ev.startAction h) e2
      if done then e3.settle h r else e3

/-! ### Sheds -/

/-- The sequencer takes the shed of its step (R72, R108). -/
def Ev.stepShed (e : Ev) (h : Hatch) : Ev :=
  if (e.st.hatch h).admitted then
    let e1 := e.mod fun s =>
      (s.neutralStep h).restDrives ((s.propActs h).filter fun a => (s.drive a).state == .inMotion)
    e1.modHatch h fun x => { x with phase := some .flowWait, stepTimer := none, settleTimer := none }
  else e

/-- The session of a MANUAL hatch ends by a shed of its reservation (R90, R109). -/
def Ev.manualShed (e : Ev) (h : Hatch) : Ev :=
  if (e.st.hatch h).state = .manual then
    let owner := (e.st.hatch h).owner
    let e1 := e.neutralise h .notManual
    let e2 := (e1.modHatch h HatchStatus.idled).setWindow h .stopped
    e2.note h (manualEndedNotice h owner)
  else e

end Sys2Proof.Machine
end

