-- ==== Sys2Proof/Machine/Admission.lean ====
section
/-! DEFINITION. Shedding, the admission pass and the end of an event (R99, R106 to R110, R92, R137). -/

namespace Sys2Proof.Machine

/-! ### Shedding -/

/-- The unit admitted last is shed (R107): a step returns to the head of the flow queue (R108), a manual reservation ends
its session (R109). -/
def Ev.shedLast (e : Ev) : Ev :=
  let e' := (e.mod fun s => s.modFa fun f => { f with units := f.units.dropLast }).wantPass
  match e.st.fa.units.getLast? with
  | none => e
  | some (.step r _) => (e'.mod fun s => s.modFa fun f => { f with queue := r :: f.queue }).stepShed r.hatch
  | some (.manual h _) => e'.manualShed h

/-- Units are shed one at a time until the list fits; all of them when A is 0 (R107, R110). -/
def Ev.shed : Nat → Ev → Ev
  | 0, e => e
  | k + 1, e =>
    if e.st.fa.units.isEmpty then e
    else if e.st.fa.avail = 0 ∨ e.st.fa.listFits = false then (e.shedLast).shed k
    else e

/-- A is recomputed (R34): a value equal to the one held changes nothing; a change sheds what no longer fits, a rise is
followed by a pass. -/
def Ev.updateAvail (e : Ev) : Ev :=
  let a := e.st.computedAvail
  if a = e.st.fa.avail then e
  else
    let e1 := (e.mod fun s => s.modFa fun f => { f with avail := a }).wantRealloc
    let e2 := if e.st.fa.avail < a then e1.wantPass else e1
    e2.shed e2.st.fa.units.length

/-! ### The admission pass -/

/-- The head of the queue admitted (R99 steps 1 to 4). -/
def FlowAllocator.admitHead (f : FlowAllocator) : Option (Hatch × FlowAllocator) :=
  match f.queue with
  | [] => none
  | r :: rest =>
    if f.fits r then some (r.hatch, { f with queue := rest, units := f.units ++ [.step r r.actions] }) else none

/-- Heads admitted one after another until the head does not fit (R99), with the hatches in the order of their
admission; `k` bounds the number by the length of the queue. -/
def FlowAllocator.admitAll : Nat → FlowAllocator → List Hatch × FlowAllocator
  | 0, f => ([], f)
  | k + 1, f =>
    match f.admitHead with
    | none => ([], f)
    | some (h, f') =>
      let r := f'.admitAll k
      (h :: r.1, r.2)

/-- One pass (R99): the admissions are made, then handed to their sequencers in their order. -/
def Ev.pass (e : Ev) : Ev :=
  let r := e.st.fa.admitAll e.st.fa.queue.length
  let e1 : Ev := { (e.mod fun s => s.modFa fun _ => r.2) with passDue := false }
  let e2 := if r.1.isEmpty then e1 else e1.wantRealloc
  e2.forHatches r.1 fun h e => e.admitted h

/-- Passes as long as one is due (R99): a withdrawal, an end or a step entry at an admission starts a new one. -/
def Ev.passes : Nat → Ev → Ev
  | 0, e => e
  | k + 1, e => if e.passDue then e.pass.passes k else e

/-- A bound of the passes of one event: an admission puts a hatch in ACTING, or ends one of its 24 steps, or takes it
out of RUNNING, so twelve hatches are admitted at most 12 × 25 times. -/
def passBound : Nat := 320

/-! ### The end of an event -/

/-- The notices of the event in ascending hatch number, those of one hatch in the order they arose (R92). -/
def sortNotices (l : List (Hatch × TxEntry)) : List TxEntry :=
  allHatches.flatMap fun h => (l.filter fun p => p.1 == h).map (·.2)

/-- The end of an event: the admission passes (R99), the allocations recomputed once (R106), and the notices of the
hatches offered (R92, R137). -/
def Ev.finish (e : Ev) : State :=
  let e1 := e.passes passBound
  let s := if e1.reallocDue then e1.st.reallocate else e1.st
  s.offerAll (sortNotices e1.notices)

end Sys2Proof.Machine
end

