-- ==== Sys2Proof/Machine/Sensor.lean ====
section
/-! DEFINITION. The Sensor Image Unit: samples, ageing, node loss and the signal update events (chapter 2), with the rest
state (R15, R16). -/

namespace Sys2Proof.Machine

/-! ### Samples -/

/-- The input as a kind reads it (R21, R22). -/
def SignalKind.reading (k : SignalKind) (input : Word16) : Int :=
  match k with
  | .value => input.toInt
  | .count => (min input.toNat 32767 : Nat)
  | .switch => if input = 0 then 0 else 1

/-- A signal with an accepted value (R21, R23). -/
def SignalState.accept (_x : SignalState) (v : Int) : SignalState :=
  { value := v, quality := .fresh, age := 0, candidate := none, run := 0 }

/-- A sample of a FRESH switch, debounced with the count `k` (R22). -/
def SignalState.debounce (x : SignalState) (k : Nat) (v : Int) : SignalState :=
  if v = x.value then { x with quality := .fresh, age := 0, candidate := none, run := 0 }
  else if x.run + 1 < k then { x with quality := .fresh, age := 0, candidate := some (v != 0), run := x.run + 1 }
  else x.accept v

/-- A signal takes a sample (R21, R22, R23). -/
def SignalState.sample (x : SignalState) (r : SignalRec) (input : Word16) : SignalState :=
  let v := r.kind.reading input
  if r.kind = .switch ∧ x.fresh = true then x.debounce r.debounce v else x.accept v

/-- The sensor image after the samples of one READ_INPUTS reply of a node (R20): a signal whose channel lies beyond the
values listed takes none. -/
def State.sampled (s : State) (n : Node) (values : List Word16) : State :=
  { s with
      signals := s.signals.mapIdx fun i x =>
        let r := s.image.signal.read i
        if r.node = some n then
          match values[r.channel.val]? with
          | some input => x.sample r input
          | none => x
        else x }

/-! ### Ageing, node loss, table changes -/

/-- A signal whose age has expired (R24). -/
def SignalState.expire (x : SignalState) (r : SignalRec) : SignalState :=
  { x with quality := .stale, age := r.maxAge, candidate := none, run := 0 }

/-- A signal whose node is LOST (R25). -/
def SignalState.invalidate (x : SignalState) (r : SignalRec) : SignalState :=
  { x with quality := .invalid, age := r.maxAge, candidate := none, run := 0 }

/-- The sensor image after the ages of some signals have expired together (R24, R35). -/
def State.expired (s : State) (l : List SignalId) : State :=
  l.foldl (fun s i => { s with signals := s.signals.put i ((s.signal i).expire (s.image.signal.read i)) }) s

/-- The sensor image after the loss of a node (R25). -/
def State.invalidated (s : State) (n : Node) : State :=
  { s with
      signals := s.signals.mapIdx fun i x =>
        let r := s.image.signal.read i
        if r.node = some n then x.invalidate r else x }

/-- The sensor image after the record of a signal has changed under it (R30). -/
def State.resetSignal (s : State) (i : SignalId) : State :=
  { s with signals := s.signals.put i { age := (s.image.signal.read i).maxAge } }

/-! ### The rest state -/

/-- The cleat groups: the role of the actuator and of the ENG count (R15). -/
def cleatGroups : List (ActRole × SigRole) := [(.pCleat, .pcEng), (.sCleat, .scEng), (.cCleat, .ccEng)]

/-- The group size field of an actuator: a PROPORTIONAL one has none (Table 1-6). -/
def ActRec.groupSize? (r : ActRec) : Option Nat :=
  match r.kind with
  | .binary f => some f.groupSize
  | .proportional _ => none

/-- The classified cleat groups of a hatch, with their group sizes (R15, R11). A PROPORTIONAL actuator, which only an
image not yet validated can bind to a cleat role, gives no group size (log entry 12). -/
def TableImage.classifiedGroups (im : TableImage) (r : HatchRec) : List (SigRole × Option Nat) :=
  cleatGroups.filterMap fun g => (r.actuatorOf g.1).map fun a => (g.2, (im.actuator.read a).groupSize?)

/-- The roles of the classification signals of a hatch (R15). -/
def TableImage.classRoles (im : TableImage) (r : HatchRec) : List SigRole :=
  [.pSeated, .sSeated, .pOpenEnd, .sOpenEnd] ++ (im.classifiedGroups r).map (·.1)

/-- The rest state of an enabled hatch (Table 1-8). -/
def State.classify (s : State) (h : Hatch) : RestState :=
  let r := s.hatchRec h
  if (s.image.classRoles r).any fun x => !((s.roleSignal h x).any SignalState.fresh) then .unknown
  else if s.roleTrue h .pSeated && s.roleTrue h .sSeated then
    if (s.image.classifiedGroups r).all fun g =>
        (s.roleSignal h g.1).any fun x => g.2.any fun size => x.value == (size : Int) then
      .closedSecured
    else .closedUnsecured
  else if s.roleTrue h .pOpenEnd && s.roleTrue h .sOpenEnd then .opened
  else .intermediate

/-- The rest state of a hatch recomputed (R15): UNKNOWN while it is not enabled. -/
def State.recomputeRest (s : State) (h : Hatch) : State :=
  s.modHatch h fun r => { r with rest := if s.enabled h then s.classify h else .unknown }

/-! ### Signal update events -/

/-- The signals whose value or quality differs between two sensor images (R27). -/
def changedSignals (old new : Tab SignalState 256) : List SignalId :=
  ((old.entries.zip new.toList).filter fun p => p.1.2.value != p.2.value || p.1.2.quality != p.2.quality).map (·.1.1)

/-- A role of the hatch resolves to one of the signals. -/
def State.roleAmong (s : State) (h : Hatch) (l : List SignalId) (r : SigRole) : Bool :=
  ((s.hatchRec h).signalOf r).any fun i => l.contains i

/-- The hatch's LOCAL_ESTOP has become FRESH and true (R85). -/
def State.estopRose (s : State) (h : Hatch) (old : Tab SignalState 256) (changed : List SignalId) : Bool :=
  s.roleAmong h changed .localEstop && s.roleTrue h .localEstop &&
    !((s.hatchRec h).signalOf .localEstop).any fun i => (old.read i).freshTrue

/-- The verdicts on an update event in RUNNING, the trip causes apart (R74). -/
def Ev.runningVerdicts (e : Ev) (h : Hatch) (r : StepRec) : Ev :=
  if !e.st.setHolds h r.holdSet then e.enterHeld h HoldCause.condition.only
  else
    match (e.st.hatch h).phase with
    | some .acting | some .settling => e.doneVerdict h r
    | _ => e

/-- The verdicts on an update event in HELD, the trip causes apart (R78). -/
def Ev.heldVerdicts (e : Ev) (h : Hatch) (r : StepRec) : Ev :=
  if e.st.setHolds h r.startSet && e.st.setHolds h r.holdSet then e.removeHold h .condition
  else e.hold h .condition

/-- The step whose trip set is read on an update event: the current one, or the marked one of a TRIPPED hatch (R48). -/
def State.evaluatedStep (s : State) (h : Hatch) : Option StepRec :=
  match (s.hatch h).state with
  | .running | .held | .stopping => s.currentStep h
  | .tripped => s.markedStep h
  | .idle | .manual => none

/-- One hatch takes the update events of one event (R28, R50, R74, R78): its LOCAL_ESTOP and, when its current sets read
a changed signal, the verdicts on them. `lostNow` tells that the same event's node loss has just tripped the hatch. -/
def Ev.updateSequencer (e : Ev) (h : Hatch) (old : Tab SignalState 256) (changed : List SignalId) (lostNow : Bool) :
    Ev :=
  let s := e.st
  let touched := (s.currentSets h lostNow).any (s.setReads h changed)
  let step := if touched then s.evaluatedStep h else none
  let causes : TripSet :=
    { tripCondition := step.any fun r => !s.setHolds h r.tripSet, localEstop := s.estopRose h old changed }
  if !causes.isEmpty then e.trip h causes
  else
    match (s.hatch h).state, step with
    | .running, some r => e.runningVerdicts h r
    | .held, some r => e.heldVerdicts h r
    | _, _ => e

/-- One enabled hatch takes the update events (Table 2-3). -/
def Ev.updateHatch (e : Ev) (h : Hatch) (old : Tab SignalState 256) (changed : List SignalId) (lostNow : Bool) : Ev :=
  let s := e.st
  if s.enabled h then
    let e' := if (s.image.classRoles (s.hatchRec h)).any (s.roleAmong h changed) then e.mod fun s => s.recomputeRest h else e
    e'.updateSequencer h old changed lostNow
  else e

/-- The position or the end role of a drive's direction reads a changed signal (R118). -/
def State.endSignals (s : State) (h : Hatch) (f : PropFields) (d : Direction) (changed : List SignalId) : Bool :=
  s.roleAmong h changed f.posRole || s.roleAmong h changed (f.endRole d)

/-- A drive with its target formed anew within the event; a change of the target or of the paused mark is handed to the
Flow Allocator (R117). -/
def Ev.reform (e : Ev) (h : Hatch) (a : ActId) (r : ActRec) (f : PropFields) : Ev :=
  let d := e.st.drive a
  let d' := e.st.reformed h r f d
  if d' = d then e else (e.mod fun s => s.setDrive a d').wantRealloc

/-- One moving drive takes the update events (R117, R118). -/
def Ev.updateDrive (changed : List SignalId) (e : Ev) (a : ActId) : Ev :=
  let s := e.st
  let r := s.image.actuator.read a
  let d := s.drive a
  match r.prop?, s.image.ownerOf a, d.direction, d.stopPosition with
  | some f, some h, some dir, some stop =>
    if s.endSignals h f dir changed && s.endOfTravel h f dir stop then
      let e' := e.mod fun s => s.restDrive a
      if d.state = .inMotion then e'.endAction a else e'
    else if d.state = .inMotion ∧
        (s.roleAmong h changed f.posRole || s.image.global.heelSignal.any fun i => changed.contains i) = true then
      e.reform h a r f
    else e
  | _, _, _, _ => e

/-- A changed signal is a running signal of a PUMP record (R34). -/
def State.pumpTouched (s : State) (changed : List SignalId) : Bool :=
  s.image.pump.toList.any fun p => p.running.any fun i => changed.contains i

/-- The stops that end because drives have reached 0 (R120). -/
def Ev.checkStops (e : Ev) : Ev := e.forHatches allHatches fun h e => e.checkStop h

/-- The update events of one event are delivered together (R27, R28): to the sequencers in ascending hatch number, to
the Drive Ramp Unit, and to the Flow Allocator (order among the blocks: log entry 11). -/
def Ev.signalUpdates (e : Ev) (old : Tab SignalState 256) (lostNow : List Hatch) : Ev :=
  let changed := changedSignals old e.st.signals
  if changed.isEmpty then e
  else
    let e1 := e.forHatches allHatches fun h e => e.updateHatch h old changed (lostNow.contains h)
    let e2 := (e1.st.movingDrives.foldl (Ev.updateDrive changed) e1).checkStops
    if e2.st.pumpTouched changed then e2.updateAvail else e2

end Sys2Proof.Machine
end

