-- ==== Sys2Proof/Machine/Supervision.lean ====
section
/-! DEFINITION. The Link Supervisor and the Stop Logic: hold windows, the link window, ESTOP_IN and the hard stop
(chapter 11). -/

namespace Sys2Proof.Machine

/-- The hatch is RUNNING or HELD on an attended step (R61, R165). -/
def State.onAttended (s : State) (h : Hatch) : Bool :=
  match (s.hatch h).state with
  | .running | .held => (s.currentStep h).any (·.attended)
  | .idle | .stopping | .tripped | .manual => false

/-- A HOLD from a console for one enabled hatch (R165): from the owner it starts the window afresh in MANUAL and on an
attended step, where it ends HOLD_LAPSE. -/
def Ev.holdFor (c : Console) (h : Hatch) (e : Ev) : Ev :=
  if (e.st.hatch h).owner = some c then
    if (e.st.hatch h).state = .manual then e.mod fun s => s.startWindow h
    else if e.st.onAttended h then (e.mod fun s => s.startWindow h).removeHold h .holdLapse
    else e
  else e

/-- The expiry of a live hold window (R165). -/
def Ev.windowExpires (e : Ev) (h : Hatch) : Ev :=
  if (e.st.hatch h).state = .manual then (e.setWindow h .lapsed).neutralise h .holdLapsed
  else if e.st.onAttended h then (e.setWindow h .lapsed).hold h .holdLapse
  else e

/-- The link window timer started afresh with the link window of the GLOBAL record (R166). -/
def State.startLink (s : State) : State := { s with ls := { s.ls with link := linkTimer s.image.global } }

/-- A MANUAL hatch met by a STOP or by LINK_LAPSE: neutralised, its window stopped (R69, R90, Table 10-3). -/
def Ev.haltManual (e : Ev) (h : Hatch) : Ev := (e.setWindow h .stopped).neutralise h .holdLapsed

/-- The lapse delivered to one hatch (R166). -/
def Ev.lapseFor (h : Hatch) (e : Ev) : Ev :=
  if (e.st.hatch h).state = .manual then e.haltManual h else e.hold h .linkLapse

/-- LINK_LAPSE is set and delivered to every enabled hatch (R166), in ascending number, the MANUAL ones neutralised in
that order (DESIGN CHOICE, log entry 48). -/
def Ev.linkLapses (e : Ev) : Ev :=
  (e.mod fun s => ({ s with ls := { s.ls with lapse := true } } : State).startLink).forHatches e.st.enabledHatches
    Ev.lapseFor

/-- LINK_LAPSE is cleared, and the end of the lapse delivered to every HELD hatch, in ascending number (R169). -/
def Ev.lapseEnds (e : Ev) : Ev :=
  (e.mod fun s => { s with ls := { s.ls with lapse := false } }).forHatches e.st.enabledHatches fun h e =>
    e.removeHold h .linkLapse

/-- A STOP naming one enabled hatch (R69). -/
def Ev.stopFor (h : Hatch) (e : Ev) : Ev :=
  match (e.st.hatch h).state with
  | .running | .held => e.enterStopping h none
  | .stopping => e.modHatch h fun r => { r with request := none }
  | .manual => e.haltManual h
  | .idle | .tripped => e

/-! ### The hard stop -/

/-- Every channel of the output image written neutral (R168); each channel that changes is dirty. -/
def State.allNeutral (s : State) : State :=
  { s with
      oir :=
        { s.oir with
            image := s.oir.image.mapIdx fun n t =>
              let r := s.image.node.read n
              t.mapIdx fun c o =>
                let v := (r.chans.read c).kind.neutral
                if o.value = v then o else { value := v, dirty := true } } }

/-- Every drive at rest, with commanded flow 0 and code 2048 (R121, R168). -/
def State.allAtRest (s : State) : State := { s with dru := { s.dru with drives := Tab.fill 96 {} } }

/-- The hard stop (R168): NEUTRAL pending, motion no longer released, every output neutral, every hatch in motion or
MANUAL tripped with the cause. -/
def Ev.hardStop (e : Ev) (c : TripCause) : Ev :=
  let e1 := e.mod fun s =>
    { s with flc := { s.flc with neutralPending := true }, sl := { s.sl with motionReleased := false } }
  let e2 := e1.mod fun s => s.allAtRest.allNeutral
  e2.forHatches e.st.enabledHatches fun h e => e.trip h c.only

/-! ### ESTOP_IN -/

/-- The debounce run that a level of the pin starts, in milliseconds (R167): 5 of active from RELEASED, 50 of inactive
from ACTIVE. -/
def debounceRun (state : Estop) (active : Bool) : Option Nat :=
  match state, active with
  | .released, true => some 5
  | .active, false => some 50
  | .released, false | .active, true => none

/-- The pin takes a level: a change breaks the run in progress (R167). -/
def StopLogic.pinTakes (l : StopLogic) (active : Bool) : StopLogic :=
  if l.pinActive = active then l else { l with pinActive := active, run := debounceRun l.estop active }

end Sys2Proof.Machine
end

