-- ==== Sys2Proof/Machine/FieldLine.lean ====
section
/-! DEFINITION. The Field Line Controller and the readback: arbiter, transactions, replies, node records (chapter 9). -/

namespace Sys2Proof.Machine

/-! ### The arbiter -/

/-- What the arbiter can send next (R144). -/
inductive Work
  | neutral
  | write (n : Node)
  | alert (n : Node)
  | forward (f : Frame)
  | poll (n : Node)
  deriving DecidableEq, Repr

/-- A node that may be written: in the map and not LOST (R144, R148). -/
def NodeState.writable : NodeState → Bool
  | .unknown | .present => true
  | .absent | .lost => false

/-- The lowest-numbered writable node with a dirty channel (R144). -/
def State.dirtyNode (s : State) : Option Node :=
  ((s.oir.image.entries.zip s.flc.nodes.toList).find? fun p =>
    p.2.state.writable && p.1.2.toList.any (·.dirty)).map (·.1.1)

/-- The lowest-numbered node with an alert read pending (R144, R151). -/
def State.alertNode (s : State) : Option Node :=
  (s.flc.nodes.entries.find? fun p => p.2.alertPending).map (·.1)

/-- The forwarded work that waits: an alert read, or else the head of the F forward queue (R144). -/
def State.forwardedWork (s : State) : Option Work :=
  match s.alertNode with
  | some n => some (.alert n)
  | none => s.flc.forward.head?.map .forward

/-- The next due node (R145): the lowest above the round-robin position, or else the lowest. -/
def State.nextDue (s : State) : Option Node :=
  let due := (s.flc.scan.entries.filter fun p => p.2.due).map (·.1)
  match due.find? fun n => decide (s.flc.position < n.val + 1) with
  | some n => some n
  | none => due.head?

/-- The arbiter's choice when the line is free of transactions (R144). -/
def State.choice (s : State) : Option Work :=
  if s.flc.outstanding.isSome then none
  else if s.flc.neutralPending then some .neutral
  else
    match s.dirtyNode with
    | some n => some (.write n)
    | none =>
      match s.forwardedWork, s.nextDue with
      | some w, some n => if s.flc.turn = .forwardedWork then some w else some (.poll n)
      | some w, none => some w
      | none, some n => some (.poll n)
      | none, none => none

/-! ### Beginning a transaction -/

/-- The Field Line Controller's state changed. -/
def State.modFlc (s : State) (f : FieldLine → FieldLine) : State := { s with flc := f s.flc }

/-- A request frame of the part to a node (R129): its own address as source, the status byte 0. -/
def State.partRequest (s : State) (n : Node) (q : FieldReq) : Frame :=
  { kind := .fieldReq, dest := n.addr, src := s.ownAddr, tag := s.flc.tagCounter, status := 0#8, payload := q.payload }

/-- A part request begins (R142): it takes the next value of the tag counter. -/
def State.beginPart (s : State) (n : Node) (q : FieldReq) (sent : List (Chan × Nat)) : State :=
  let frame := s.partRequest n q
  s.modFlc fun f =>
    { f with
        outstanding :=
          some { node := n, fn := q.fn, tag := f.tagCounter, requester := .part, sent := sent, left := none },
        tagCounter := f.tagCounter + 1, lineOut := some { bytes := frame.encode, rate := s.mu.fRate } }

/-- The channels of a node that a part write carries, in channel order, with their values (R146). -/
def State.dirtyPairs (s : State) (n : Node) : List (Chan × Nat) :=
  ((s.oir.image.read n).entries.filter fun p => p.2.dirty).map fun p => (p.1, p.2.value)

/-- The dirty marks of a node cleared (R146). -/
def State.clearDirty (s : State) (n : Node) : State :=
  { s with
      oir :=
        { s.oir with
            image := s.oir.image.put n ((s.oir.image.read n).mapAll fun o => { o with dirty := false }) } }

/-- A part WRITE_OUTPUTS begins (R146). -/
def State.beginWrite (s : State) (n : Node) : State :=
  let pairs := s.dirtyPairs n
  (s.clearDirty n).beginPart n (.writeOutputs pairs) pairs

/-- A follow-up READ_STATUS begins (R151): the pending mark is cleared, and the turn passes to the scan (R144). -/
def State.beginAlert (s : State) (n : Node) : State :=
  ((s.setNode n { s.node n with alertPending := false }).beginPart n .readStatus []).modFlc fun f =>
    { f with turn := .scanPolls }

/-- A forwarded request begins (R142, R144): it keeps the console's tag and source, and leaves the F forward queue. -/
def State.beginForward (s : State) (f : Frame) : State :=
  match nodeAt f.destAddr, consoleAt f.srcAddr, parseFieldReq f.payload with
  | some n, some c, some q =>
    s.modFlc fun l =>
      { l with
          outstanding :=
            some { node := n, fn := q.fn, tag := f.tag, requester := .console c, sent := [], left := none },
          forward := l.forward.tail, turn := .scanPolls,
          lineOut := some { bytes := f.encode, rate := s.mu.fRate } }
  | _, _, _ => s

/-- A scan poll begins (R145): the due mark is cleared, the scan timer restarted, the position moved to the node. -/
def State.beginPoll (s : State) (n : Node) : State :=
  (s.beginPart n .readInputs []).modFlc fun f =>
    { f with
        scan := f.scan.put n { due := false, left := some s.image.global.scanPeriod }, position := n.val + 1,
        turn := .forwardedWork }

/-- NEUTRAL begins to be sent (R153): destination 0, no payload; its tag is a free value (log entry 6). -/
def State.beginNeutral (s : State) : State :=
  let frame : Frame :=
    { kind := .neutral, dest := 0#8, src := s.ownAddr, tag := Config.neutralTag s.freeCount, status := 0#8,
      payload := [] }
  let s' := s.modFlc fun f =>
    { f with neutralPending := false, lineOut := some { bytes := frame.encode, rate := s.mu.fRate } }
  { s' with freeCount := s.freeCount + 1 }

/-! ### Replies -/

/-- The address a reply to the requester carries as destination (R143). -/
def State.requesterAddr (s : State) : Requester → Nat
  | .part => addrOf s.ownAddr
  | .console c => 48 + c.val

/-- The reply that a run of bytes brings to the outstanding transaction, if it is one (R143). While the part is
transmitting, its receiver takes no frame. -/
def State.matchReply (s : State) (r : Run) : Option (Transaction × Frame × FieldReply) :=
  match s.flc.outstanding, validFrame r with
  | some t, some f =>
    match parseFieldReply f.payload with
    | some q =>
      if t.left.isSome ∧ f.kind = .fieldReply ∧ f.srcAddr = t.node.val + 1 ∧
          f.destAddr = s.requesterAddr t.requester ∧ f.tag = t.tag ∧ q.fn = t.fn then
        some (t, f, q)
      else none
    | none => none
  | _, _ => none

/-- The part is transmitting a request on the F-line. -/
def FieldLine.transmitting (f : FieldLine) : Bool := f.outstanding.any fun t => t.left.isNone

/-- The ALERT indication of a FIELD_REPLY (Table 8-3). -/
def Frame.alert (f : Frame) : Bool := f.status.getLsbD 7

/-- A node record after the ALERT indication of a reply (R151, R152). -/
def NodeRecord.alerted (r : NodeRecord) (alert : Bool) : NodeRecord :=
  if r.saturated then r
  else if alert then
    if r.alertRun + 1 < 6 then { r with alertRun := r.alertRun + 1, alertPending := true }
    else { r with alertRun := 6, saturated := true, alertPending := false }
  else { r with alertRun := 0 }

/-- A node record at a reply taken (R148, R149 step 1): a WRITE_OUTPUTS reply ends the saturation first. -/
def NodeRecord.replied (r : NodeRecord) (fn : Fn) (alert : Bool) : NodeRecord :=
  let r1 : NodeRecord := { r with state := .present, misses := 0, sinceReply := 0 }
  let r2 := if fn = .writeOutputs then r1.endSaturation else r1
  r2.alerted alert

/-- The node's record updated for a reply; ALERT_SAT is set when the node saturates at it (R149, R152). -/
def State.nodeReplied (s : State) (n : Node) (fn : Fn) (alert : Bool) : State :=
  let before := s.node n
  let after := before.replied fn alert
  let s' := s.setNode n after
  let satBefore := if fn = .writeOutputs then false else before.saturated
  if after.saturated && !satBefore then s'.setFlag .alertSat else s'

/-- An echo matches the value sent (R150). -/
def echoMatches (k : ChanKind) (tolerance sent echo : Nat) : Bool :=
  match k with
  | .binary => echo == sent
  | .proportional => decide (max echo sent - min echo sent ≤ tolerance)

/-- The channels a write carried whose echo does not match, or is not listed (R150). -/
def State.mismatches (s : State) (n : Node) (sent echo : List (Chan × Nat)) : List Chan :=
  (sent.filter fun p =>
    match echo.find? fun q => q.1 == p.1 with
    | some q => !echoMatches (s.image.chan n p.1).kind s.image.global.readbackTolerance p.2 q.2
    | none => true).map (·.1)

/-- The actuator in use on a node's channel belongs to this hatch. -/
def TableImage.drivesChan (im : TableImage) (h : Hatch) (n : Node) (c : Chan) : Bool :=
  let r := im.hatch.read h
  r.enabled && r.actIds.any fun a => (im.actuator.read a).node == n && (im.actuator.read a).channel == c

/-- READBACK of a channel is delivered to this hatch (R150). -/
def TableImage.readbackTo (im : TableImage) (h : Hatch) (n : Node) (c : Chan) : Bool :=
  match (im.chan n c).cls with
  | .owned => im.drivesChan h n c
  | .guarded => (im.chan n c).hatch == h
  | .free => false

/-- The readback of a part write (R150). -/
def Ev.readback (e : Ev) (t : Transaction) (echo : List (Chan × Nat)) : Ev :=
  if e.st.image.global.readbackEnable then
    let bad := e.st.mismatches t.node t.sent echo
    if bad.isEmpty then e
    else
      let hatches := allHatches.filter fun h => bad.any (e.st.image.readbackTo h t.node)
      (e.mod fun s => s.setFlag .readbackMismatch).forHatches hatches fun h e => e.trip h TripCause.readback.only
  else e

/-- A change of a node's fault word between zero and non-zero, delivered to one hatch the node is bound to (R151,
R78). -/
def Ev.faultChange (nonzero : Bool) (h : Hatch) (e : Ev) : Ev :=
  if nonzero then e.hold h .nodeFault
  else if e.st.boundFault h then e
  else e.removeHold h .nodeFault

/-- A READ_STATUS reply stores its fault word (R151). -/
def Ev.storeFault (e : Ev) (n : Node) (w : Word16) : Ev :=
  let old := (e.st.node n).faultWord
  let e1 := e.mod fun s => s.setNode n { s.node n with faultWord := w }
  if (old != 0) = (w != 0) then e1
  else e1.forHatches (allHatches.filter fun h => e.st.image.boundNode h n) (Ev.faultChange (w != 0))

/-- The effect of a reply by its function (R149 step 2). A READ_STATUS reply that is itself the sixth with ALERT stores its
fault word and delivers the change, as R149 and R151 have every such reply do, though R152 has the fault word and
NODE_FAULT keep their values when the node saturates: DESIGN CHOICE (log entry 51). -/
def Ev.replyEffect (e : Ev) (t : Transaction) (q : FieldReply) : Ev :=
  match q with
  | .inputs values => (e.mod fun s => s.sampled t.node values).signalUpdates e.st.signals []
  | .outputs echo => if t.requester = .part then e.readback t echo else e
  | .status w => e.storeFault t.node w

/-- A reply taken (R149): the node record, the effect by function, and the forwarding of a console's reply (R136). A
reply of a node that has left the map is forwarded and changes nothing else (R148). The node is judged as it stands at
the reply: of one that has left the map and entered it again meanwhile the reply is taken. DESIGN CHOICE (log entry 47). -/
def State.takeReply (s : State) (t : Transaction) (f : Frame) (q : FieldReply) : State :=
  let s1 := s.modFlc fun l => { l with outstanding := none }
  let s2 :=
    if (s.node t.node).state = .absent then s1
    else ((Ev.begin (s1.nodeReplied t.node t.fn f.alert)).replyEffect t q).finish
  match t.requester with
  | .part => s2
  | .console _ => s2.offer (.forwarded f)

/-! ### Misses -/

/-- The hatches that the loss of a node trips: bound to it, and neither IDLE nor TRIPPED (R85). -/
def State.trippedByLoss (s : State) (n : Node) : List Hatch :=
  allHatches.filter fun h =>
    s.image.boundNode h n && (s.hatch h).state != .idle && (s.hatch h).state != .tripped

/-- A node declared LOST (R148): NODE_LOST, the trips of the hatches bound to it, then its signals INVALID (R25). The
hatches are tripped, and the MANUAL ones among them neutralised, in ascending number (DESIGN CHOICE, log entry 48). -/
def Ev.declareLost (e : Ev) (n : Node) : Ev :=
  let e1 := e.mod fun s =>
    (s.setNode n { s.node n with state := .lost, misses := 3, alertPending := false }).setFlag .nodeLost
  let bound := allHatches.filter fun h => e.st.image.boundNode h n
  let e2 := e1.forHatches bound fun h e => e.trip h TripCause.nodeLost.only
  (e2.mod fun s => s.invalidated n).signalUpdates e2.st.signals (e.st.trippedByLoss n)

/-- A miss counted for a node (R148); for a node that has left the map none is. The node is judged as it stands at the
timeout (DESIGN CHOICE, log entry 47). -/
def Ev.countMiss (e : Ev) (n : Node) : Ev :=
  let r := e.st.node n
  match r.state with
  | .absent | .lost => e
  | .unknown | .present =>
    if r.misses + 1 < 3 then e.mod fun s => s.setNode n { r with misses := r.misses + 1 } else e.declareLost n

/-- A channel marked dirty again, its value as it stands (R146). -/
def State.markDirty (s : State) (n : Node) (c : Chan) : State :=
  s.setOutChan n c { s.outChan n c with dirty := true }

/-- The transaction ends in a timeout (R142): a miss, a NOREPLY notice to its console, or the channels of a part write
dirty again. -/
def State.timeOut (s : State) (t : Transaction) : State :=
  let s1 := s.modFlc fun l => { l with outstanding := none }
  let s2 := ((Ev.begin s1).countMiss t.node).finish
  match t.requester with
  | .console c => s2.offer (noreplyNotice c t.tag t.node)
  | .part => t.sent.foldl (fun s p => s.markDirty t.node p.1) s2

/-! ### Scan and refresh -/

/-- A node is in the scan: in the map with poll enable set (R145). -/
def NodeRec.inScan (r : NodeRec) : Bool := r.inMap && r.poll

/-- The refresh of a node (R147): when an OWNED channel is not neutral, every OWNED channel is marked dirty. -/
def State.refresh (s : State) (n : Node) : State :=
  let r := s.image.node.read n
  let t := s.oir.image.read n
  let driven := t.entries.any fun p =>
    (r.chans.read p.1).cls == .owned && p.2.value != (r.chans.read p.1).kind.neutral
  if driven then
    { s with
        oir :=
          { s.oir with
              image := s.oir.image.put n
                (t.mapIdx fun c o => if (r.chans.read c).cls = .owned then { o with dirty := true } else o) } }
  else s

/-! ### Changes of a NODE record -/

/-- A node record at a change of the node map (R148). -/
def NodeRecord.remapped (r : NodeRecord) (was isNow : Bool) : NodeRecord :=
  if was = isNow then r else { state := if isNow then .unknown else .absent, sinceReply := r.sinceReply }

/-- A scan entry at a change of the scan (R145). -/
def ScanEntry.rescanned (x : ScanEntry) (was isNow : Bool) : ScanEntry :=
  if was = isNow then x else { due := isNow, left := none }

/-- One channel at a change of its NODE record: a changed kind gives the neutral of the new kind, dirty, and the shadow
becomes that neutral (R146, R158). -/
def State.rekind (s : State) (n : Node) (c : Chan) (old new : ChanRec) : State :=
  if old.kind = new.kind then s
  else (s.setOutChan n c { value := new.kind.neutral, dirty := true }).setShadow n c new.kind.neutral

/-- The blocks act on the change of a NODE record from `old` to the one now followed (R145, R146, R148, R161). -/
def State.nodeChanged (s : State) (n : Node) (old : NodeRec) : State :=
  let new := s.image.node.read n
  let s1 := s.setNode n ((s.node n).remapped old.inMap new.inMap)
  let s2 := s1.modFlc fun f => { f with scan := f.scan.put n ((f.scan.read n).rescanned old.inScan new.inScan) }
  let s3 := allChans.foldl (fun s c => s.rekind n c (old.chans.read c) (new.chans.read c)) s2
  s3.rejudgeQueue n

end Sys2Proof.Machine
end

