-- ==== Sys2Proof/WellFormed.lean ====
section
/-! DEFINITION. The checks on a command's operands: what an event of the part can bring. -/

namespace Sys2Proof

/-- A run holds at least one byte (R127). -/
def Run.wellFormed (r : Run) : Bool := !r.bytes.isEmpty

/-- The ids of one expiry event: at least one, none twice (R24). -/
def expiryWellFormed (l : List SignalId) : Bool := !l.isEmpty && decide l.Nodup

/-- The command's operands are ones an event can bring. -/
def Instr.wellFormed : Instr → Bool
  | .cFrameArrives r | .stop r | .hold r | .keep r | .inputsReply r | .outputsReply r | .statusReply r
  | .fFrameDiscard r => r.wellFormed
  | .signalAgeExpiry l => expiryWellFormed l
  | .powerUp _ | .resetN _ | .resetDeviceTaken _ | .queueHeadReject | .readItem | .writeItem | .clearFlags
  | .acknowledgeHatches | .acknowledgeDevice | .enterConfig | .loadRecord | .readRecord | .leaveConfig | .resetDevice
  | .openHatches | .closeHatches | .pause | .resume | .manualEnter | .manualLeave | .fieldReqJudge | .transmitStart
  | .transmitEnd | .neutralSend | .partWriteBegin | .alertReadBegin | .forwardBegin | .scanPollBegin | .requestSent
  | .replyTimeout | .scanTimerExpiry _ | .refreshTimerExpiry _ | .stepTimeout _ | .settleExpiry _ | .rampTick
  | .holdWindowExpiry _ | .linkWindowExpiry | .estopInChange _ | .estopDebounceActive | .estopDebounceReleased
  | .storeComplete _ | .storeWriteTimeout => true

end Sys2Proof
end

