-- ==== Sys2Proof/Machine/LineCommands.lean ====
section
/-! DEFINITION. The commands of the F-line: what the arbiter begins, the end of a request, replies, discarded frames and
the reply timeout (chapter 9). -/

namespace Sys2Proof.Machine

/-- NEUTRAL_SEND (R144, R153): the arbiter's first choice. -/
def execNeutralSend (s : State) : Host.Outcome State Fault Refusal :=
  .next (match s.choice with
    | some .neutral => s.beginNeutral
    | some (.write _) | some (.alert _) | some (.forward _) | some (.poll _) | none => s)

/-- PART_WRITE_BEGIN (R144, R146): the arbiter's second choice. -/
def execPartWriteBegin (s : State) : Host.Outcome State Fault Refusal :=
  .next (match s.choice with
    | some (.write n) => s.beginWrite n
    | some .neutral | some (.alert _) | some (.forward _) | some (.poll _) | none => s)

/-- ALERT_READ_BEGIN (R144, R151). -/
def execAlertReadBegin (s : State) : Host.Outcome State Fault Refusal :=
  .next (match s.choice with
    | some (.alert n) => s.beginAlert n
    | some .neutral | some (.write _) | some (.forward _) | some (.poll _) | none => s)

/-- FORWARD_BEGIN (R142, R144). -/
def execForwardBegin (s : State) : Host.Outcome State Fault Refusal :=
  .next (match s.choice with
    | some (.forward f) => s.beginForward f
    | some .neutral | some (.write _) | some (.alert _) | some (.poll _) | none => s)

/-- SCAN_POLL_BEGIN (R144, R145). -/
def execScanPollBegin (s : State) : Host.Outcome State Fault Refusal :=
  .next (match s.choice with
    | some (.poll n) => s.beginPoll n
    | some .neutral | some (.write _) | some (.alert _) | some (.forward _) | none => s)

/-- The reply timeout of a transaction started (R142). -/
def State.startTimeout (s : State) (t : Transaction) : State :=
  s.modFlc fun f => { f with outstanding := some { t with left := some s.image.global.replyTimeout } }

/-- REQUEST_SENT (R142): the last byte of the request has been sent, and the reply timeout starts. -/
def execRequestSent (s : State) : Host.Outcome State Fault Refusal :=
  .next (match s.flc.outstanding with
    | some t => if t.left.isNone then s.startTimeout t else s
    | none => s)

/-- The reply that a run brings to the outstanding transaction, when its function is `fn` (R143). -/
def State.replyOf (s : State) (fn : Fn) (run : Run) : Option (Transaction × Frame × FieldReply) :=
  (s.matchReply run).filter fun x => x.1.fn == fn

/-- INPUTS_REPLY (R149, R20). -/
def execInputsReply (run : Run) (s : State) : Host.Outcome State Fault Refusal :=
  .next (match s.replyOf .readInputs run with
    | some (t, f, q) => s.takeReply t f q
    | none => s)

/-- OUTPUTS_REPLY (R149, R150). -/
def execOutputsReply (run : Run) (s : State) : Host.Outcome State Fault Refusal :=
  .next (match s.replyOf .writeOutputs run with
    | some (t, f, q) => s.takeReply t f q
    | none => s)

/-- STATUS_REPLY (R149, R151). -/
def execStatusReply (run : Run) (s : State) : Host.Outcome State Fault Refusal :=
  .next (match s.replyOf .readStatus run with
    | some (t, f, q) => s.takeReply t f q
    | none => s)

/-- F_FRAME_DISCARD (R143): a frame received that is not the outstanding reply sets F_FRAME_ERR, and nothing else
changes. While the part is transmitting it receives none. -/
def execFFrameDiscard (run : Run) (s : State) : Host.Outcome State Fault Refusal :=
  .next (if run.wellFormed && !s.flc.transmitting && (s.matchReply run).isNone then s.setFlag .fFrameErr else s)

/-- REPLY_TIMEOUT (R142). -/
def execReplyTimeout (s : State) : Host.Outcome State Fault Refusal :=
  .next (match s.flc.outstanding with
    | some t => if t.left.isSome then s.timeOut t else s
    | none => s)

end Sys2Proof.Machine
end

