-- ==== Sys2Proof/Machine/Validation.lean ====
section
/-! DEFINITION. The validation of a table image (Table 12-3, R176). A failure names a table id and an index. -/

namespace Sys2Proof.Machine

/-- The record a failed check names: table id and index. -/
abbrev Named := Nat × Nat

/-- Every step number, ascending. -/
def allSteps : List StepNo := ascending 24

/-- Every profile, ascending. -/
def allProfiles : List Profile := ascending 4

/-- The final step of a sequence: the first whose last field is yes (R54). -/
def TableImage.finalStep (im : TableImage) (p : Profile) (o : Op) : Option StepNo :=
  allSteps.find? fun n => (im.stepOf p o n).last

/-- The enabled HATCH records, with their hatches, ascending. -/
def TableImage.enabledRecs (im : TableImage) : List (Hatch × HatchRec) :=
  im.hatch.entries.filter fun p => p.2.enabled

/-- A profile of some enabled hatch: its sequences are used (R54). -/
def TableImage.usedProfile (im : TableImage) (p : Profile) : Bool := im.enabledRecs.any fun x => x.2.profile == p

/-- The used sequences, in ascending index (R54). -/
def TableImage.usedSequences (im : TableImage) : List (Profile × Op) :=
  (allProfiles.filter im.usedProfile).flatMap fun p => [(p, .opening), (p, .closing)]

/-- The steps of a sequence from step 0 to its final step (R54). -/
def TableImage.stepsOf (im : TableImage) (p : Profile) (o : Op) : List StepNo :=
  match im.finalStep p o with
  | some f => allSteps.filter fun n => decide (n ≤ f)
  | none => allSteps

/-- The steps of the used sequences, in ascending index. -/
def TableImage.usedSteps (im : TableImage) : List (Profile × Op × StepNo) :=
  im.usedSequences.flatMap fun q => (im.stepsOf q.1 q.2).map fun n => (q.1, q.2, n)

/-- Stage 1: a used sequence without a final step. -/
def TableImage.stage1 (im : TableImage) : Option Named :=
  (im.usedSequences.find? fun q => (im.finalStep q.1 q.2).isNone).map fun q => (9, (stepIndex q.1 q.2 23).val)

/-- The kind of actuator that a command drives (R55). -/
def Command.kind : Command → ChanKind
  | .sideA | .sideB => .binary
  | .outTo _ _ | .inTo _ _ => .proportional

/-- A step number lies after the final step of a sequence. -/
def TableImage.afterFinal (im : TableImage) (p : Profile) (o : Op) (n : Option StepNo) : Bool :=
  n.any fun k => (im.finalStep p o).any fun f => decide (f < k)

/-- Stage 2: a step of a used sequence fails (R55, R63, R64). -/
def TableImage.stepFails (im : TableImage) (q : Profile × Op × StepNo) : Bool :=
  let r := im.stepOf q.1 q.2.1 q.2.2
  (r.actionList.any fun a => a.command.kind != a.role.kind) ||
  !decide (r.actionList.map (·.role)).Nodup ||
  im.afterFinal q.1 q.2.1 r.reentry || im.afterFinal q.1 q.2.1.opposite r.reverse

/-- Stage 2: the first step that fails. -/
def TableImage.stage2 (im : TableImage) : Option Named :=
  (im.usedSteps.find? im.stepFails).map fun q => (9, (stepIndex q.1 q.2.1 q.2.2).val)

/-- The conditions of the four sets that a step names. -/
def TableImage.stepConds (im : TableImage) (r : StepRec) : List CondRec :=
  ([r.startSet, r.holdSet, r.tripSet, r.doneSet].flatMap im.setOf).map im.condition.read

/-- The records of the steps of a profile's two sequences, step 0 to the final step. -/
def TableImage.profileSteps (im : TableImage) (p : Profile) : List StepRec :=
  ((im.stepsOf p .opening).map fun n => im.stepOf p .opening n) ++
  (im.stepsOf p .closing).map fun n => im.stepOf p .closing n

/-- The signals that DIRECT conditions of used steps read (R18). -/
def TableImage.directSignals (im : TableImage) : List SignalId :=
  (allProfiles.filter im.usedProfile).flatMap fun p =>
    (im.profileSteps p).flatMap fun r =>
      (im.stepConds r).filterMap fun c =>
        match c.ref with
        | .direct i => some i
        | .role _ => none

/-- The signals in use (R18). -/
def TableImage.usedSignals (im : TableImage) : List SignalId :=
  (im.enabledRecs.flatMap fun x => x.2.sigs.toList.filterMap id) ++
  im.pump.toList.filterMap (·.running) ++ im.global.heelSignal.toList ++ im.directSignals

/-- Stage 3: the first signal mapped to a node out of the map, or unmapped and in use. -/
def TableImage.stage3 (im : TableImage) : Option Named :=
  let used := im.usedSignals
  (im.signal.entries.find? fun p =>
    match p.2.node with
    | some n => !(im.node.read n).inMap
    | none => used.contains p.1).map fun p => (4, p.1.val)

/-- The actuators in use, ascending (R9). -/
def TableImage.usedActs (im : TableImage) : List ActId :=
  let bound := im.enabledRecs.flatMap fun x => x.2.actIds
  (ascending 96).filter bound.contains

/-- The relations of the fields of a PROPORTIONAL actuator fail (R12). -/
def PropFields.relationsFail (f : PropFields) : Bool :=
  decide (f.maxFlow < f.minFlow) || decide (f.creepFlow < f.minFlow) || decide (f.maxFlow < f.creepFlow)

/-- Stage 4: an actuator in use fails; `used` are the actuators in use. -/
def TableImage.actFails (im : TableImage) (used : List ActId) (a : ActId) : Bool :=
  let r := im.actuator.read a
  let ch := im.chan r.node r.channel
  (r.prop?.any PropFields.relationsFail) || ch.cls != .owned || ch.kind != r.chanKind || !(im.node.read r.node).inMap ||
  used.any fun b =>
    decide (b < a) && (im.actuator.read b).node == r.node && (im.actuator.read b).channel == r.channel

/-- Stage 4: the first actuator in use that fails. -/
def TableImage.stage4 (im : TableImage) : Option Named :=
  let used := im.usedActs
  (used.find? (im.actFails used)).map fun a => (7, a.val)

/-- A role bound to an actuator of the other kind or of the wrong side (R2). -/
def TableImage.bindingFails (im : TableImage) (r : HatchRec) (x : ActRole) : Bool :=
  (r.actuatorOf x).any fun a =>
    let rec' := im.actuator.read a
    rec'.chanKind != x.kind || x.side.any fun sd => rec'.side != sd

/-- A role that a used step or a ROLE condition of its sets names is absent (R6, R40). -/
def TableImage.roleAbsent (im : TableImage) (r : HatchRec) (st : StepRec) : Bool :=
  (st.actionList.any fun a => (r.actuatorOf a.role).isNone) ||
  (im.stepConds st).any fun c =>
    match c.ref with
    | .role x => (r.signalOf x).isNone
    | .direct _ => false

/-- A drive that a used step moves lacks a binding of its position, out-end or in-end role (R13). -/
def TableImage.driveUnbound (im : TableImage) (r : HatchRec) (st : StepRec) : Bool :=
  st.actionList.any fun x =>
    (r.actuatorOf x.role).any fun a =>
      (im.actuator.read a).prop?.any fun f =>
        (r.signalOf f.posRole).isNone || (r.signalOf f.outEndRole).isNone || (r.signalOf f.inEndRole).isNone

/-- Stage 5: an enabled hatch fails. -/
def TableImage.hatchFails (im : TableImage) (x : Hatch × HatchRec) : Bool :=
  let r := x.2
  let lower := (im.enabledRecs.filter fun y => decide (y.1 < x.1)).flatMap fun y => y.2.actIds
  let steps := im.profileSteps r.profile
  (ActRole.all.any (im.bindingFails r)) || (r.actIds.any fun a => lower.contains a) || !decide r.actIds.Nodup ||
  (steps.any (im.roleAbsent r)) || steps.any (im.driveUnbound r)

/-- Stage 5: the first enabled hatch that fails. -/
def TableImage.stage5 (im : TableImage) : Option Named :=
  (im.enabledRecs.find? im.hatchFails).map fun x => (8, x.1.val + 1)

/-- The validation, stage by stage: the record that the first failing check names (R176). -/
def TableImage.validate (im : TableImage) : Option Named :=
  im.stage1 <|> im.stage2 <|> im.stage3 <|> im.stage4 <|> im.stage5

end Sys2Proof.Machine
end

