-- ==== Sys2Proof/Machine/Items.lean ====
section
/-! DEFINITION. The items of READ_ITEM (Table 8-8, R162): what each owner reports. -/

namespace Sys2Proof.Machine

/-- An optional console as a byte. -/
def consoleByte (c : Option Console) : Byte := optByte (c.map fun x => 48 + x.val)

/-- A timer in units of `k` ms, rounded down; 0 when stopped (R162). -/
def timerField (k : Nat) (t : Option Nat) : List Byte := be16n (t.getD 0 / k)

/-- Item 4: the hatch status record (Table 8-8). -/
def hatchItem (r : HatchStatus) : List Byte :=
  [byte r.state.code, optByte (r.operation.map Op.code), optByte (r.step.map (·.val)), optByte (r.phase.map Phase.code),
   r.active.byteOf, r.latched.byteOf, r.history.byteOf, r.trips.byteOf, optByte (r.firstTrip.map TripCause.code),
   optByte (r.request.map fun q => q.1.code), consoleByte (r.request.map (·.2)),
   optByte (r.marker.map fun m => m.1.code), optByte (r.marker.map fun m => m.2.val), consoleByte r.owner,
   optByte (r.lastResume.map fun x => x.1.code), (r.lastResume.map fun x => x.2.byteOf).getD 0xFF#8,
   byte r.rest.code] ++ timerField 100 r.stepTimer ++ timerField 1 r.settleTimer

/-- Item 5: the node record. -/
def nodeItem (r : NodeRecord) : List Byte :=
  [byte r.state.code, byte r.misses, byte r.alertRun, boolByte r.saturated] ++ be16 r.faultWord ++ be16n r.sinceReply

/-- A two-byte field that is absent: what it holds is a free value (log entry 6). -/
def absentOr (absent : Word16) (x : Option Nat) : List Byte :=
  match x with
  | some n => be16n n
  | none => be16 absent

/-- Item 6 for a proportional actuator: the drive entry (R126). -/
def driveItem (a : ActId) (d : Drive) : List Byte :=
  [byte d.state.code, optByte (d.direction.map Direction.code)] ++ absentOr (Config.absentSpeed a) d.speed ++
  absentOr (Config.absentStopPosition a) d.stopPosition ++ be16n d.target ++ [boolByte d.paused] ++ be16n d.alloc ++
  be16n d.c ++ be16n d.code ++ [boolByte d.saturated]

/-- The one data byte of item 6 for a BINARY actuator (Table 8-8). A channel value above 255, which only an image not yet
validated gives it (a PROPORTIONAL channel at 2048), has no byte in the manual: a free value (log entry 46). -/
def channelByte (v : Nat) : Byte := if v < 256 then byte v else Config.wideChannelByte v

/-- Item 6: an actuator not in use is reported with its reset values (R162). -/
def State.actuatorItem (s : State) (a : ActId) : List Byte :=
  let r := s.image.actuator.read a
  let used := (s.image.ownerOf a).isSome
  match r.kind with
  | .proportional _ => driveItem a (if used then s.drive a else {})
  | .binary _ => [channelByte (if used then (s.outChan r.node r.channel).value else 0)]

/-- The operation and the step of a hatch, as bytes. -/
def HatchStatus.opStep (r : HatchStatus) : List Byte := [optByte (r.operation.map Op.code), optByte (r.step.map (·.val))]

/-- Item 7, index 0: the sums of the flow state (R112). -/
def State.flowItem (s : State) : List Byte :=
  be16n s.fa.avail ++ be16n s.rawFlow ++ be16n s.image.global.reserve ++ be16n s.fa.demand ++ be16n s.fa.minimum ++
  be16n s.unallocated ++ [byte s.fa.queue.length, byte s.fa.units.length]

/-- Item 7, one entry of the flow queue. -/
def State.queueItem (s : State) (r : FlowRequest) : List Byte :=
  byte r.hatch.number :: (s.hatch r.hatch).opStep ++ be16n r.dStep ++ be16n r.mStep

/-- Item 7, one action of a step unit. -/
def State.actionItem (s : State) (p : ActId × Nat) : List Byte :=
  byte p.1.val :: be16n p.2 ++ be16n (s.drive p.1).target ++ be16n (s.drive p.1).alloc ++ [boolByte (s.drive p.1).paused]

/-- Item 7, one unit of the admission list: a manual unit has no operation, step or action. -/
def State.unitItem (s : State) : FlowUnit → List Byte
  | .step r l =>
    [byte r.hatch.number, 0#8] ++ (s.hatch r.hatch).opStep ++ be16n r.dStep ++ [byte l.length] ++
      l.flatMap s.actionItem
  | .manual h v => [byte h.number, 1#8, 0xFF#8, 0xFF#8] ++ be16n v ++ [0#8]

/-- Item 7 at an index (Table 8-8): no data beyond the present length. -/
def State.flowAt (s : State) (i : Nat) : Option (List Byte) :=
  if i = 0 then some s.flowItem
  else if 1 ≤ i ∧ i ≤ 12 then some ((s.fa.queue[i - 1]?.map s.queueItem).getD [])
  else if 257 ≤ i ∧ i ≤ 268 then some ((s.fa.units[i - 257]?.map s.unitItem).getD [])
  else none

/-- Item 8: the signal entry (R29). -/
def signalItem (x : SignalState) : List Byte :=
  be16 (BitVec.ofInt 16 x.value) ++ [byte x.quality.code] ++ be16n x.age ++
  [optByte (x.candidate.map fun b => if b then 1 else 0), byte x.run]

/-- The data of an item at an index (Table 8-8): none where the item or the index is out of range (R162). -/
def State.item (s : State) (item index : Nat) : Option (List Byte) :=
  match item with
  | 1 => if index = 0 then some (be16n 412 ++ [1#8, s.ownAddr]) else none
  | 2 => if index = 0 then some [byte s.mu.mode.code] else none
  | 3 => if index = 0 then some (be16 s.mu.flags) else none
  | 4 => (hatchAt index).map fun h => hatchItem (s.hatch h)
  | 5 => (nodeAt index).map fun n => nodeItem (s.node n)
  | 6 => (below 96 index).map s.actuatorItem
  | 7 => s.flowAt index
  | 8 => (below 256 index).map fun i => signalItem (s.signal i)
  | _ => none

end Sys2Proof.Machine
end

