-- ==== Sys2Proof/Machine/Manage.lean ====
section
/-! DEFINITION. The Management Unit's requests: WRITE_ITEM, ACKNOWLEDGE, configuration mode, the store, RESET_DEVICE
(chapters 11 and 12), and the answers. -/

namespace Sys2Proof.Machine

/-! ### Answers -/

/-- The answer to a management request (Table 8-7). -/
def mgmtPayload (code : Nat) (r : MgmtResult) (data : List Byte) : List Byte := byte code :: byte r.code :: data

/-- A MGMT_REPLY offered at the end of a service (R135). -/
def State.answer (s : State) (c : Console) (tag : Byte) (payload : List Byte) : State :=
  s.offer (mgmtReply c tag payload)

/-- The pairs of hatch number and result, with their count (Table 8-7). -/
def resultPairs (l : List (Hatch × Nat)) : List Byte :=
  byte l.length :: l.flatMap fun p => [byte p.1.number, byte p.2]

/-! ### READ_ITEM -/

/-- The answer to READ_ITEM (R162). -/
def State.readItemPayload (s : State) (item index : Nat) : List Byte :=
  match s.item item index with
  | some data => mgmtPayload 1 .done data
  | none => mgmtPayload 1 .badArgument []

/-! ### WRITE_ITEM -/

/-- One field of the GLOBAL record written by its number: none when the number is outside 1 to 13, or the value outside
the field's range or off its step (R163, R175). -/
def GlobalRec.setField (g : GlobalRec) (field v : Nat) : Option GlobalRec :=
  match field with
  | 1 => if within 0 1023 v then some { g with reserve := v } else none
  | 2 => if within 10 100 v && v % 10 == 0 then some { g with rampTick := v } else none
  | 3 => if within 100 1000 v && v % 50 == 0 then some { g with holdWindow := v } else none
  | 4 => if v == 0 || (within 500 10000 v && v % 100 == 0) then some { g with linkWindow := v } else none
  | 5 => if within 2 20 v then some { g with replyTimeout := v } else none
  | 6 => if within 20 1000 v then some { g with scanPeriod := v } else none
  | 7 => if within 100 1000 v then some { g with outputRefresh := v } else none
  | 8 => if v ≤ 1 then some { g with readbackEnable := v == 1 } else none
  | 9 => if within 0 63 v then some { g with readbackTolerance := v } else none
  | 10 => if within 0 1500 v then some { g with heelSoft := v } else none
  | 11 =>
    if v = 0xFFFF then some { g with heelSignal := none }
    else (below 256 v).map fun i => { g with heelSignal := some i }
  | 12 => (CRate.ofCode v).map fun x => { g with cRate := x }
  | 13 => (FRate.ofCode v).map fun x => { g with fRate := x }
  | _ => none

/-- The fields that may be written outside CONFIG: reserve, readback tolerance, heel_soft (R163). -/
def liveField (field : Nat) : Bool := field == 1 || field == 9 || field == 10

/-- The GLOBAL record followed replaced (R163): in the working tables in CONFIG, else in the active ones. -/
def State.setGlobal (s : State) (g : GlobalRec) : State :=
  match s.mu.mode with
  | .config => { s with mu := { s.mu with working := { s.mu.working with global := g } } }
  | .noTables | .storing | .operate => { s with mu := { s.mu with active := { s.mu.active with global := g } } }

/-- Every action in motion has its target formed anew (R117). -/
def Ev.reformAll (e : Ev) : Ev :=
  e.st.movingDrives.foldl
    (fun e a =>
      let r := e.st.image.actuator.read a
      match r.prop?, e.st.image.ownerOf a, (e.st.drive a).state with
      | some f, some h, .inMotion => e.reform h a r f
      | _, _, _ => e) e

/-- What the blocks do at a write of one GLOBAL field (R163): the reserve changes A, heel_soft and the heel signal the
targets; every other field is read at its next use. -/
def Ev.fieldWritten (e : Ev) (field : Nat) : Ev :=
  if field = 1 then e.updateAvail else if field = 10 ∨ field = 11 then e.reformAll else e

/-- The result of WRITE_ITEM (R163, R177), with the record to place. In OPERATE and NO_TABLES a value out of range of a
field that only CONFIG may write meets both BAD_ARGUMENT and REFUSED_STATE, which R163 leaves without an order: the answer
is BAD_ARGUMENT, DESIGN CHOICE (log entry 53), unsafe for that result code. -/
def State.writeItemResult (s : State) (field v : Nat) : MgmtResult × Option GlobalRec :=
  if s.mu.mode = .storing then (.refusedBusy, none)
  else
    match s.image.global.setField field v with
    | none => (.badArgument, none)
    | some g =>
      if s.mu.mode = .config ∨ liveField field = true then (.done, some g) else (.refusedState, none)

/-- WRITE_ITEM served, its answer apart (R163). -/
def State.writeItem (s : State) (field v : Nat) : State :=
  match (s.writeItemResult field v).2 with
  | some g => ((Ev.begin (s.setGlobal g)).fieldWritten field).finish
  | none => s

/-! ### ACKNOWLEDGE -/

/-- Every trip cause of a hatch has cleared (R88). -/
def State.tripsCleared (s : State) (h : Hatch) : Bool :=
  let t := (s.hatch h).trips
  (!t.tripCondition || (s.markedStep h).all fun r => s.setHolds h r.tripSet) &&
  (!t.nodeLost || !s.boundLost h) &&
  (!t.localEstop || (s.roleSignal h .localEstop).any fun x => x.fresh && x.value == 0) &&
  (!t.estopInput || s.sl.estop == .released) &&
  (!t.linkLost || !s.ls.lapse)

/-- The result of an acknowledgement for one named hatch (R88). -/
def State.ackResult (s : State) (h : Hatch) : MgmtResult :=
  if !s.enabled h then .badArgument
  else if (s.hatch h).state ≠ .tripped then .refusedState
  else if s.tripsCleared h then .done
  else .refusedCondition

/-- The record of a hatch whose trip is acknowledged (R88): IDLE, the marker kept. -/
def HatchStatus.acknowledged (r : HatchStatus) : HatchStatus :=
  { r with state := .idle, operation := none, step := none, owner := none, trips := {}, firstTrip := none }

/-- The acknowledgement of one named hatch (R88). -/
def State.ackHatch (s : State) (h : Hatch) : State :=
  if s.ackResult h = .done then s.modHatch h HatchStatus.acknowledged else s

/-- The acknowledgement of the named hatches, in ascending number, with their results (R88). -/
def State.ackHatches (s : State) : List Hatch → State × List (Hatch × Nat)
  | [] => (s, [])
  | h :: l =>
    let r := (s.ackHatch h).ackHatches l
    (r.1, (h, (s.ackResult h).code) :: r.2)

/-- Motion can be released: OPERATE, ESTOP_IN RELEASED, LINK_LAPSE clear (R169 step 2). -/
def State.releasable (s : State) : Bool := s.mu.mode == .operate && s.sl.estop == .released

/-- ACKNOWLEDGE naming the device (R169): the lapse ends, and motion is released when it can be. -/
def State.ackDevice (s : State) : State :=
  let e := Ev.begin s
  let e1 := if s.ls.lapse then e.lapseEnds else e
  let s1 := (e1.mod State.startLink).finish
  if s.releasable then { s1 with sl := { s1.sl with motionReleased := true } } else s1

/-! ### Configuration mode -/

/-- Every enabled hatch is IDLE (R173). -/
def State.allIdle (s : State) : Bool := s.enabledHatches.all fun h => (s.hatch h).state == .idle

/-- The result of ENTER_CONFIG (R173). -/
def State.enterConfigResult (s : State) : MgmtResult :=
  match s.mu.mode with
  | .operate => if s.allIdle then .done else .refusedBusy
  | .noTables => .done
  | .config => .refusedState
  | .storing => .refusedBusy

/-- ENTER_CONFIG accepted (R173): the working tables become a copy of the tables followed, motion is no longer
released. -/
def State.enterConfig (s : State) : State :=
  { s with
      mu := { s.mu with mode := .config, working := s.mu.active },
      sl := { s.sl with motionReleased := false } }

/-- The result of LOAD_RECORD (R174). -/
def State.loadResult (s : State) (table index : Nat) (bytes : List Byte) : MgmtResult :=
  match s.mu.mode with
  | .operate | .noTables => .refusedState
  | .storing => .refusedBusy
  | .config => if (decodeRecord table index bytes).isSome then .done else .badArgument

/-- The rest states of every hatch recomputed (R15). -/
def State.recomputeAllRest (s : State) : State := allHatches.foldl State.recomputeRest s

/-- A hatch whose HATCH record has been loaded: one that is not enabled holds the reset values (R5, R66). -/
def State.hatchLoaded (s : State) (h : Hatch) : State := if s.enabled h then s else s.setHatch h {}

/-- What the blocks do at a change of a working record (R172), `old` being the image before the load. -/
def Ev.recordLoaded (e : Ev) (old : TableImage) : TableRecord → Ev
  | .global _ => e.reformAll.updateAvail
  | .pump _ _ => e.updateAvail
  | .node n _ => e.mod fun s => s.nodeChanged n (old.node.read n)
  | .signal i _ =>
    ((e.mod fun s => s.resetSignal i).signalUpdates e.st.signals []).mod State.recomputeAllRest
  | .condition _ _ | .condset _ _ | .step _ _ => e
  | .actuator _ _ => e.mod State.recomputeAllRest
  | .hatch h _ => e.mod fun s => (s.hatchLoaded h).recomputeAllRest

/-- The working tables replaced. -/
def State.setWorking (s : State) (im : TableImage) : State := { s with mu := { s.mu with working := im } }

/-- A record placed in the working tables (R174). -/
def State.loadRecord (s : State) (r : TableRecord) : State :=
  ((Ev.begin (s.setWorking (s.mu.working.load r))).recordLoaded s.image r).finish

/-- LOAD_RECORD served, its answer apart (R174). -/
def State.serveLoad (s : State) (table index : Nat) (bytes : List Byte) : State :=
  match s.loadResult table index bytes, decodeRecord table index bytes with
  | .done, some r => s.loadRecord r
  | _, _ => s

/-- The answer to READ_RECORD (R174): the table id, the index and the record. -/
def State.readRecordPayload (s : State) (table index : Nat) : List Byte :=
  match s.image.recordBytes table index with
  | some bytes => mgmtPayload 7 .done (byte table :: be16n index ++ bytes)
  | none => mgmtPayload 7 .badArgument []

/-- The result of LEAVE_CONFIG, with the record a failing check names (R176). -/
def State.leaveResult (s : State) (crc : Word16) : MgmtResult × Option Named :=
  match s.mu.mode with
  | .operate | .noTables => (.refusedState, none)
  | .storing => (.refusedBusy, none)
  | .config =>
    match s.mu.working.validate with
    | some x => (.tableInvalid, some x)
    | none => if s.mu.working.crc = crc then (.done, none) else (.crcMismatch, none)

/-- LEAVE_CONFIG accepted (R177, R178): the working image becomes the active tables, the mode STORING, and the store
write begins by invalidating the reference CRC. -/
def State.leaveConfig (s : State) : State :=
  { s with
      mu :=
        { s.mu with
            active := s.mu.working, mode := .storing, storeLeft := some 400, store := { s.mu.store with crc := none } } }

/-- The answer to LEAVE_CONFIG (Table 8-7). -/
def leavePayload (r : MgmtResult × Option Named) : List Byte :=
  mgmtPayload 8 r.1 (match r.2 with
    | some x => byte x.1 :: be16n x.2
    | none => [])

/-- The completion of STORING (R178): OPERATE whether or not the write succeeded, the markers cleared (R65), the link
window timer afresh (R166), the new line rates in force (R137). From then on TABLE_CRC may end clear (R179). -/
def State.completeStoring (s : State) (done : Bool) : State :=
  let store : Store :=
    if done then { image := s.mu.active, crc := some s.mu.active.crc } else { s.mu.store with crc := none }
  let s1 : State :=
    { s with
        mu :=
          { s.mu with
              mode := .operate, storeLeft := none, store := store, cRate := s.mu.active.global.cRate,
              fRate := s.mu.active.global.fRate, tableless := false },
        hatches := s.hatches.mapAll fun r => { r with marker := none } }
  let s2 := s1.startLink
  if done then s2 else s2.setFlag .storeFault

/-! ### RESET_DEVICE -/

/-- A hatch in motion or MANUAL (R170). -/
def SeqState.busy : SeqState → Bool
  | .running | .held | .stopping | .manual => true
  | .idle | .tripped => false

/-- The result of RESET_DEVICE (R170, R177). -/
def State.resetResult (s : State) : MgmtResult :=
  if s.mu.mode = .storing then .refusedBusy
  else if s.enabledHatches.any fun h => (s.hatch h).state.busy then .refusedBusy
  else .done

/-- RESET_DEVICE accepted (R170): its DONE reply is offered; the reset is taken when the reply has been sent, or at the
end of the service when the reply is discarded at a full queue. -/
def State.acceptReset (s : State) (c : Console) (tag : Byte) : State :=
  let phase : ResetPhase := if s.cp.tx.length < 8 then .awaitingReply else .due
  ({ s with mu := { s.mu with resetPhase := phase } } : State).offer
    (.own .mgmtReply c.addr tag (mgmtPayload 9 .done []) true)

end Sys2Proof.Machine
end

