-- ==== Sys2Proof/Machine/ManagementCommands.lean ====
section
/-! DEFINITION. The management requests served at the head of the C receive queue (R133 to R135, chapters 11 and 12):
each is one event, which takes the frame from the queue, acts, and ends by offering its answer. -/

namespace Sys2Proof.Machine

/-- The MGMT_REQ that the head of the C receive queue asks to have served, with its console and its tag. -/
def State.headMgmt (s : State) : Option (Console × Byte × MgmtReq) :=
  match s.headService with
  | some (.mgmt c tag q) => some (c, tag, q)
  | some (.operate _ _ _ _) | some (.field _ _ _ _) | some (.reject _ _) | none => none

/-- READ_ITEM (R162): the answer, and no other change. -/
def execReadItem (s : State) : Host.Outcome State Fault Refusal :=
  .next (match s.headMgmt with
    | some (c, tag, .readItem item index) => s.dropHead.answer c tag (s.readItemPayload item index)
    | _ => s)

/-- WRITE_ITEM (R163). -/
def execWriteItem (s : State) : Host.Outcome State Fault Refusal :=
  .next (match s.headMgmt with
    | some (c, tag, .writeItem field v) =>
      (s.dropHead.writeItem field v).answer c tag (mgmtPayload 2 (s.writeItemResult field v).1 [])
    | _ => s)

/-- CLEAR_FLAGS served, its answer apart (R164, R177). -/
def State.serveClear (s : State) (mask : Word16) : State := if s.mu.mode = .storing then s else s.clearFlags mask

/-- The result of CLEAR_FLAGS (R164, R177). -/
def State.clearResult (s : State) : MgmtResult := if s.mu.mode = .storing then .refusedBusy else .done

/-- CLEAR_FLAGS (R164). -/
def execClearFlags (s : State) : Host.Outcome State Fault Refusal :=
  .next (match s.headMgmt with
    | some (c, tag, .clearFlags mask) => (s.dropHead.serveClear mask).answer c tag (mgmtPayload 3 s.clearResult [])
    | _ => s)

/-- The hatches of an ACKNOWLEDGE with scope 0 served (R88, R169, R177): the new state and the answer. -/
def State.serveAckHatches (s : State) (hi lo : Byte) : State × List Byte :=
  if s.mu.mode = .storing then (s, mgmtPayload 4 .refusedBusy [])
  else
    match parseMask hi lo with
    | none => (s, mgmtPayload 4 .badArgument [])
    | some l => ((s.ackHatches l).1, [4#8, 0#8] ++ resultPairs (s.ackHatches l).2)

/-- ACKNOWLEDGE with scope 0 (R88). -/
def execAcknowledgeHatches (s : State) : Host.Outcome State Fault Refusal :=
  .next (match s.headMgmt with
    | some (c, tag, .acknowledge 0 hi lo) =>
      let r := s.dropHead.serveAckHatches hi lo
      r.1.answer c tag r.2
    | _ => s)

/-- The result of an ACKNOWLEDGE whose scope is not 0 (R169, R177). -/
def State.ackDeviceResult (s : State) (scope : Nat) : MgmtResult :=
  if s.mu.mode = .storing then .refusedBusy
  else if scope ≠ 1 then .badArgument
  else if s.releasable then .done
  else .refusedCondition

/-- The effect of an ACKNOWLEDGE whose scope is not 0 (R169, R177). -/
def State.serveAckDevice (s : State) (scope : Nat) : State :=
  if s.mu.mode = .storing ∨ scope ≠ 1 then s else s.ackDevice

/-- ACKNOWLEDGE naming the device, or a scope outside 0 and 1 (R169). -/
def execAcknowledgeDevice (s : State) : Host.Outcome State Fault Refusal :=
  .next (match s.headMgmt with
    | some (c, tag, .acknowledge (k + 1) _ _) =>
      (s.dropHead.serveAckDevice (k + 1)).answer c tag (mgmtPayload 4 (s.ackDeviceResult (k + 1)) [])
    | _ => s)

/-- ENTER_CONFIG served, its answer apart (R173). -/
def State.serveEnterConfig (s : State) : State := if s.enterConfigResult = .done then s.enterConfig else s

/-- ENTER_CONFIG (R173). -/
def execEnterConfig (s : State) : Host.Outcome State Fault Refusal :=
  .next (match s.headMgmt with
    | some (c, tag, .enterConfig) => s.dropHead.serveEnterConfig.answer c tag (mgmtPayload 5 s.enterConfigResult [])
    | _ => s)

/-- LOAD_RECORD (R174). -/
def execLoadRecord (s : State) : Host.Outcome State Fault Refusal :=
  .next (match s.headMgmt with
    | some (c, tag, .loadRecord table index bytes) =>
      (s.dropHead.serveLoad table index bytes).answer c tag (mgmtPayload 6 (s.loadResult table index bytes) [])
    | _ => s)

/-- The answer to READ_RECORD, which STORING refuses no more than READ_ITEM (R174, R177). -/
def execReadRecord (s : State) : Host.Outcome State Fault Refusal :=
  .next (match s.headMgmt with
    | some (c, tag, .readRecord table index) => s.dropHead.answer c tag (s.readRecordPayload table index)
    | _ => s)

/-- LEAVE_CONFIG served, its answer apart (R176, R177). -/
def State.serveLeave (s : State) (crc : Word16) : State :=
  if (s.leaveResult crc).1 = .done then s.leaveConfig else s

/-- LEAVE_CONFIG (R176). -/
def execLeaveConfig (s : State) : Host.Outcome State Fault Refusal :=
  .next (match s.headMgmt with
    | some (c, tag, .leaveConfig crc) => (s.dropHead.serveLeave crc).answer c tag (leavePayload (s.leaveResult crc))
    | _ => s)

/-- RESET_DEVICE (R170). -/
def execResetDevice (s : State) : Host.Outcome State Fault Refusal :=
  .next (match s.headMgmt with
    | some (c, tag, .resetDevice) =>
      if s.resetResult = .done then s.dropHead.acceptReset c tag
      else s.dropHead.answer c tag (mgmtPayload 9 s.resetResult [])
    | _ => s)

end Sys2Proof.Machine
end

