-- ==== Sys2Proof/Machine/OperateCommands.lean ====
section
/-! DEFINITION. The six operation requests (R67, Table 5-3), served at the head of the C receive queue. -/

namespace Sys2Proof.Machine

/-- The OPERATE that the head of the C receive queue asks to have served. -/
def State.headOperate (s : State) : Option (Console × Byte × OpReq × List Hatch) :=
  match s.headService with
  | some (.operate c tag q l) => some (c, tag, q, l)
  | some (.mgmt _ _ _) | some (.field _ _ _ _) | some (.reject _ _) | none => none

/-- The first two tests of R67: not enabled, CONFIG or STORING. -/
def State.opGate (s : State) (h : Hatch) : Option OpResult :=
  if !s.enabled h then some .badHatch
  else
    match s.mu.mode with
    | .config | .storing => some .refusedConfig
    | .noTables | .operate => none

/-- A cell of Table 5-3 with two entries: the result for the owner first, for any other console second. -/
def HatchStatus.ownerElse (r : HatchStatus) (c : Console) (x : OpResult) : OpResult :=
  if r.owner = some c then x else .refusedOwner

/-- OPEN or CLOSE for one hatch that passes the first two tests (R68, R83, Table 5-3). -/
def Ev.sequenceRequest (o : Op) (c : Console) (h : Hatch) (e : Ev) : Ev × OpResult :=
  let r := e.st.hatch h
  match r.state with
  | .idle =>
    match e.st.startRefusal with
    | some res => (e, res)
    | none => (e.startSequence h o c, .accepted)
  | .running | .held =>
    if r.owner ≠ some c then (e, .refusedOwner)
    else if r.operation = some o then (e, .noChange)
    else (e.enterStopping h (some (o, c)), .queued)
  | .stopping =>
    if r.owner ≠ some c then (e, .refusedOwner)
    else
      (e.modHatch h fun x => { x with request := some (o, c) }, if r.request.isSome then .superseded else .queued)
  | .tripped => (e, .refusedTripped)
  | .manual => (e, r.ownerElse c .refusedState)

/-- PAUSE for one hatch, from any console (R79). -/
def Ev.pauseRequest (_c : Console) (h : Hatch) (e : Ev) : Ev × OpResult :=
  let r := e.st.hatch h
  match r.state with
  | .running => (e.hold h .pause, .accepted)
  | .held => if r.active.pause then (e, .noChange) else (e.hold h .pause, .accepted)
  | .idle | .stopping | .tripped | .manual => (e, .noChange)

/-- RESUME for one hatch (R80, Table 5-3). -/
def Ev.resumeRequest (c : Console) (h : Hatch) (e : Ev) : Ev × OpResult :=
  let r := e.st.hatch h
  match r.state with
  | .idle => (e, .refusedState)
  | .running => (e, r.ownerElse c .noChange)
  | .held =>
    if r.owner ≠ some c then (e, .refusedOwner)
    else
      let e' := e.modHatch h fun x => { x with active := { x.active with pause := false }, latched := {} }
      if (e'.st.hatch h).active.isEmpty then (e'.resume h .request, .resumed) else (e', .refusedCondition)
  | .stopping | .manual => (e, r.ownerElse c .refusedState)
  | .tripped => (e, .refusedTripped)

/-- The refusals of MANUAL_ENTER in IDLE (R89), if there is one. -/
def State.enterRefusal (s : State) (h : Hatch) : Option OpResult :=
  match s.startRefusal with
  | some res => some res
  | none => if s.fa.reservationFits (s.hatchRec h).reservation then none else some .refusedFlow

/-- An accepted MANUAL_ENTER (R89): the reservation is admitted, the session begins, and the trip causes that stand trip
the hatch at the same event. -/
def Ev.beginManual (e : Ev) (h : Hatch) (c : Console) : Ev :=
  let unit : FlowUnit := .manual h (e.st.hatchRec h).reservation
  let e1 := (e.mod fun s => s.modFa fun f => { f with units := f.units ++ [unit] }).wantRealloc
  let e2 := e1.modHatch h fun r => { r with state := .manual, owner := some c, marker := none }
  let e3 := e2.mod fun s => s.startWindow h
  let causes : TripSet := { nodeLost := e3.st.boundLost h, localEstop := e3.st.roleTrue h .localEstop }
  if causes.isEmpty then e3 else e3.trip h causes

/-- MANUAL_ENTER for one hatch (R89, Table 5-3). -/
def Ev.manualEnterRequest (c : Console) (h : Hatch) (e : Ev) : Ev × OpResult :=
  let r := e.st.hatch h
  match r.state with
  | .idle =>
    match e.st.enterRefusal h with
    | some res => (e, res)
    | none => (e.beginManual h c, .accepted)
  | .running | .held | .stopping => (e, r.ownerElse c .refusedState)
  | .tripped => (e, .refusedTripped)
  | .manual => (e, r.ownerElse c .noChange)

/-- The end of a session by its owner (R91). -/
def Ev.endManual (e : Ev) (h : Hatch) : Ev :=
  let e1 := (e.neutralise h .notManual).releaseUnit h
  (e1.modHatch h HatchStatus.idled).setWindow h .stopped

/-- MANUAL_LEAVE for one hatch (R91, Table 5-3). -/
def Ev.manualLeaveRequest (c : Console) (h : Hatch) (e : Ev) : Ev × OpResult :=
  let r := e.st.hatch h
  match r.state with
  | .idle => (e, .noChange)
  | .running | .held | .stopping => (e, r.ownerElse c .refusedState)
  | .tripped => (e, .refusedTripped)
  | .manual => if r.owner = some c then (e.endManual h, .accepted) else (e, .refusedOwner)

/-- The named hatches handled in turn, each against the state the ones before it left (R67), with their results. -/
def Ev.handleEach (f : Hatch → Ev → Ev × OpResult) : List Hatch → Ev → Ev × List (Hatch × Nat)
  | [], e => (e, [])
  | h :: l, e =>
    match e.st.opGate h with
    | some res =>
      let r := Ev.handleEach f l e
      (r.1, (h, res.code) :: r.2)
    | none =>
      let x := f h e
      let r := Ev.handleEach f l x.1
      (r.1, (h, x.2.code) :: r.2)

/-- A MANUAL_ENTER or MANUAL_LEAVE that names several hatches changes none: each receives BAD_HATCH (R67). One that is
not enabled counts among those named, though R5 would have the others handled as if it were not, and CONFIG and STORING
do not answer first, though R173 and R177 have OPERATE answered REFUSED_CONFIG there: DESIGN CHOICE (log entry 42). -/
def Ev.handleOne (f : Hatch → Ev → Ev × OpResult) (l : List Hatch) (e : Ev) : Ev × List (Hatch × Nat) :=
  match l with
  | _ :: _ :: _ => (e, l.map fun h => (h, OpResult.badHatch.code))
  | [] | [_] => Ev.handleEach f l e

/-- The answer to an OPERATE (Table 8-7). -/
def operatePayload (q : OpReq) (l : List (Hatch × Nat)) : List Byte := [0#8, byte q.code] ++ resultPairs l

/-- An OPERATE served (R67, R133, R135): the frame leaves the queue, its hatches are handled as one event, and the answer
is offered last. -/
def State.serveOperate (s : State) (c : Console) (tag : Byte) (q : OpReq) (handle : Ev → Ev × List (Hatch × Nat)) :
    State :=
  let r := handle (Ev.begin s.dropHead)
  r.1.finish.answer c tag (operatePayload q r.2)

/-- OPEN (R67, R68, R83). -/
def execOpenHatches (s : State) : Host.Outcome State Fault Refusal :=
  .next (match s.headOperate with
    | some (c, tag, .opening, l) => s.serveOperate c tag .opening (Ev.handleEach (Ev.sequenceRequest .opening c) l)
    | _ => s)

/-- CLOSE (R67, R68, R83). -/
def execCloseHatches (s : State) : Host.Outcome State Fault Refusal :=
  .next (match s.headOperate with
    | some (c, tag, .closing, l) => s.serveOperate c tag .closing (Ev.handleEach (Ev.sequenceRequest .closing c) l)
    | _ => s)

/-- PAUSE (R67, R79). -/
def execPause (s : State) : Host.Outcome State Fault Refusal :=
  .next (match s.headOperate with
    | some (c, tag, .pause, l) => s.serveOperate c tag .pause (Ev.handleEach (Ev.pauseRequest c) l)
    | _ => s)

/-- RESUME (R67, R80). -/
def execResume (s : State) : Host.Outcome State Fault Refusal :=
  .next (match s.headOperate with
    | some (c, tag, .resume, l) => s.serveOperate c tag .resume (Ev.handleEach (Ev.resumeRequest c) l)
    | _ => s)

/-- MANUAL_ENTER (R67, R89). -/
def execManualEnter (s : State) : Host.Outcome State Fault Refusal :=
  .next (match s.headOperate with
    | some (c, tag, .manualEnter, l) =>
      s.serveOperate c tag .manualEnter (Ev.handleOne (Ev.manualEnterRequest c) l)
    | _ => s)

/-- MANUAL_LEAVE (R67, R91). -/
def execManualLeave (s : State) : Host.Outcome State Fault Refusal :=
  .next (match s.headOperate with
    | some (c, tag, .manualLeave, l) =>
      s.serveOperate c tag .manualLeave (Ev.handleOne (Ev.manualLeaveRequest c) l)
    | _ => s)

end Sys2Proof.Machine
end

