-- ==== Sys2Proof/Machine/PortCommands.lean ====
section
/-! DEFINITION. The Console Port's own commands: arrivals, the refusal of the queue head, the judgement of a console
FIELD_REQ, and the transmitter (chapter 8, R156). -/

namespace Sys2Proof.Machine

/-- C_FRAME_ARRIVES (R132): a run that is not an urgent frame is offered to the C receive queue. -/
def execCFrameArrives (run : Run) (s : State) : Host.Outcome State Fault Refusal :=
  .next (if run.wellFormed && (s.urgentOf run).isNone then s.receive (rxEntryOf run) else s)

/-- An urgent STOP acted on (R69): one event for all the enabled hatches it names. -/
def State.stopHatches (s : State) (l : List Hatch) : State :=
  ((Ev.begin s).forHatches (l.filter s.enabled) Ev.stopFor).finish

/-- STOP (R69, R131). -/
def execStop (run : Run) (s : State) : Host.Outcome State Fault Refusal :=
  .next (match s.urgentOf run with
    | some (.stop l) => s.stopHatches l
    | some (.hold _ _) | some .keep | none => s)

/-- An urgent HOLD acted on (R165): each named enabled hatch is handled at the frame's arrival. -/
def State.holdHatches (s : State) (c : Console) (l : List Hatch) : State :=
  ((Ev.begin s).forHatches (l.filter s.enabled) (Ev.holdFor c)).finish

/-- HOLD (R165, R131). -/
def execHold (run : Run) (s : State) : Host.Outcome State Fault Refusal :=
  .next (match s.urgentOf run with
    | some (.hold c l) => s.holdHatches c l
    | some (.stop _) | some .keep | none => s)

/-- KEEP (R166, R131): the link window timer restarts. -/
def execKeep (run : Run) (s : State) : Host.Outcome State Fault Refusal :=
  .next (match s.urgentOf run with
    | some .keep => s.startLink
    | some (.stop _) | some (.hold _ _) | none => s)

/-- The head discarded with a REJECT notice (R134): an error-marked frame sets C_FRAME_ERR. -/
def State.reject (s : State) (e : RxEntry) (reason : RejectReason) : State :=
  let s1 :=
    match e with
    | .invalid _ _ => s.dropHead.setFlag .cFrameErr
    | .valid _ => s.dropHead
  s1.offer (rejectNotice e reason)

/-- QUEUE_HEAD_REJECT (R134). -/
def execQueueHeadReject (s : State) : Host.Outcome State Fault Refusal :=
  .next (match s.headService with
    | some (.reject e reason) => s.reject e reason
    | some (.mgmt _ _ _) | some (.operate _ _ _ _) | some (.field _ _ _ _) | none => s)

/-- FIELD_REQ_JUDGE (R133, R156): the Traffic Filter judges the head while the F forward queue has room. -/
def execFieldReqJudge (s : State) : Host.Outcome State Fault Refusal :=
  .next (match s.headService with
    | some (.field f c n q) => s.dropHead.judge f c n q
    | some (.mgmt _ _ _) | some (.operate _ _ _ _) | some (.reject _ _) | none => s)

/-- TRANSMIT_START (R137, R130): the transmitter begins the head frame, its status byte and CRC built now, at the C-port
rate in force. -/
def execTransmitStart (s : State) : Host.Outcome State Fault Refusal :=
  .next (match s.cp.sending, s.cp.tx with
    | none, t :: _ => { s with cp := { s.cp with sending := some { bytes := s.txBytes t, rate := s.mu.cRate } } }
    | _, _ => s)

/-- The last byte of the head frame has been sent (R137): the frame leaves the queue; the reset of an accepted
RESET_DEVICE is due after its reply (R170). -/
def State.sentHead (s : State) (t : TxEntry) : State :=
  { s with
      cp := { s.cp with tx := s.cp.tx.tail, sending := none },
      mu := { s.mu with resetPhase := if t.marksReset then .due else s.mu.resetPhase } }

/-- TRANSMIT_END (R137). -/
def execTransmitEnd (s : State) : Host.Outcome State Fault Refusal :=
  .next (match s.cp.sending, s.cp.tx with
    | some _, t :: _ => s.sentHead t
    | _, _ => s)

end Sys2Proof.Machine
end

