-- ==== Sys2Proof/Machine/StartUp.lean ====
section
/-! DEFINITION. Start-up (R179): what every reset does. -/

namespace Sys2Proof.Machine

/-- The stored image, when its CRC matches the reference CRC (R179). -/
def Store.found (st : Store) : Option TableImage := if st.crc = some st.image.crc then some st.image else none

/-- A reset with the straps at a level (R139, R170, R179): the store, the level of ESTOP_IN and the commands waiting stay;
everything else takes its reset value under the image found. -/
def State.startUp (s : State) (straps : Fin 4) : State :=
  bootState s.mu.store.found straps s.mu.store s.sl.pinActive s.freeCount s.pending

end Sys2Proof.Machine
end

