-- ==== Sys2Proof/Machine/ResetCommands.lean ====
section
/-! DEFINITION. The three resets: POWER_UP, RESET_N, RESET_DEVICE_TAKEN (R139, R170, R179). -/

namespace Sys2Proof.Machine

/-- POWER_UP (R179): every block takes its reset values, the straps are read and start-up reads the table store. -/
def execPowerUp (straps : Fin 4) (s : State) : Host.Outcome State Fault Refusal := .next (s.startUp straps)

/-- RESET_N (R179, R139): acts as power-up does. -/
def execResetN (straps : Fin 4) (s : State) : Host.Outcome State Fault Refusal := .next (s.startUp straps)

/-- RESET_DEVICE_TAKEN (R170): the reset of an accepted RESET_DEVICE, due once the last byte of its DONE reply has been
sent, or once its service ended with the reply discarded. While none is due the event does not occur (log entry 1). -/
def execResetDeviceTaken (straps : Fin 4) (s : State) : Host.Outcome State Fault Refusal :=
  .next (match s.mu.resetPhase with
    | .due => s.startUp straps
    | .inactive | .awaitingReply => s)

end Sys2Proof.Machine
end

