-- ==== Sys2Proof/Machine/StopCommands.lean ====
section
/-! DEFINITION. The emergency-stop input: its level and its debounce (R167, R168). -/

namespace Sys2Proof.Machine

/-- ESTOP_IN_CHANGE (R167): the pin takes a level, and a change breaks the run in progress and starts the other. -/
def execEstopInChange (active : Bool) (s : State) : Host.Outcome State Fault Refusal :=
  .next { s with sl := s.sl.pinTakes active }

/-- The debounced state ACTIVE, its run at an end (R167). -/
def State.estopOn (s : State) : State := { s with sl := { s.sl with estop := .active, run := none } }

/-- ESTOP_DEBOUNCE_ACTIVE (R167, R168): a hard stop with cause ESTOP_INPUT, and ESTOP_ACTIVE. -/
def execEstopDebounceActive (s : State) : Host.Outcome State Fault Refusal :=
  .next (if s.sl.estop = .released ∧ s.sl.pinActive = true ∧ s.sl.run.isSome = true then
      ((Ev.begin s.estopOn).hardStop .estopInput).finish.setFlag .estopActive
    else s)

/-- ESTOP_DEBOUNCE_RELEASED (R167): the debounced state becomes RELEASED and asserts nothing. -/
def execEstopDebounceReleased (s : State) : Host.Outcome State Fault Refusal :=
  .next (if s.sl.estop = .active ∧ s.sl.pinActive = false ∧ s.sl.run.isSome = true then
      { s with sl := { s.sl with estop := .released, run := none } }
    else s)

end Sys2Proof.Machine
end

