-- ==== Sys2Proof/Machine/StoreCommands.lean ====
section
/-! DEFINITION. The completion of STORING (R178). -/

namespace Sys2Proof.Machine

/-- STORE_COMPLETE (R178): the store reports the reference CRC written, or a failure. -/
def execStoreComplete (done : Bool) (s : State) : Host.Outcome State Fault Refusal :=
  .next (if s.mu.mode = .storing then s.completeStoring done else s)

/-- STORE_WRITE_TIMEOUT (R178): 400 ms have passed without success. -/
def execStoreWriteTimeout (s : State) : Host.Outcome State Fault Refusal :=
  .next (if s.mu.mode = .storing then s.completeStoring false else s)

end Sys2Proof.Machine
end

