-- ==== Sys2Proof/Machine/TimerCommands.lean ====
section
/-! DEFINITION. The expiries of the part's timers (R24, R74, R75, R119, R145, R147, R165, R166). An expiry occurs only
while its timer runs (log entry 3). -/

namespace Sys2Proof.Machine

/-- SCAN_TIMER_EXPIRY (R145): the node becomes due, and its timer starts another period (log entry 18). -/
def execScanTimerExpiry (node : Node) (s : State) : Host.Outcome State Fault Refusal :=
  .next (if (s.flc.scan.read node).left.isSome then
      s.modFlc fun f => { f with scan := f.scan.put node { due := true, left := some s.image.global.scanPeriod } }
    else s)

/-- The refresh timer of a node started afresh (R147). -/
def State.restartRefresh (s : State) (n : Node) : State :=
  { s with oir := { s.oir with refreshLeft := s.oir.refreshLeft.put n s.image.global.outputRefresh } }

/-- REFRESH_TIMER_EXPIRY (R147). -/
def execRefreshTimerExpiry (node : Node) (s : State) : Host.Outcome State Fault Refusal :=
  .next ((s.refresh node).restartRefresh node)

/-- The age of some FRESH signals runs out at one event (R24, R35). -/
def State.expireSignals (s : State) (l : List SignalId) : State :=
  (((Ev.begin s).mod fun s => s.expired l).signalUpdates s.signals []).finish

/-- SIGNAL_AGE_EXPIRY (R24): only the age of a FRESH signal runs. -/
def execSignalAgeExpiry (signals : List SignalId) (s : State) : Host.Outcome State Fault Refusal :=
  .next (if expiryWellFormed signals && signals.all fun i => (s.signal i).fresh then s.expireSignals signals else s)

/-- STEP_TIMEOUT (R74): the step timer, which runs in ACTING and SETTLING, trips the hatch. -/
def execStepTimeout (hatch : Hatch) (s : State) : Host.Outcome State Fault Refusal :=
  .next (if (s.hatch hatch).admitted && (s.hatch hatch).stepTimer.isSome then
      ((Ev.begin s).trip hatch TripCause.stepTimeout.only).finish
    else s)

/-- The settle timer of a record runs: RUNNING in SETTLING (R59, R73). -/
def HatchStatus.settles (r : HatchStatus) : Bool :=
  r.state == .running && r.phase == some .settling && r.settleTimer.isSome

/-- SETTLE_EXPIRY (R75): the settle timer, which runs in SETTLING, ends the step. -/
def execSettleExpiry (hatch : Hatch) (s : State) : Host.Outcome State Fault Refusal :=
  .next (if (s.hatch hatch).settles then ((Ev.begin s).stepEnd hatch).finish else s)

/-- The ramp tick timer started afresh (R113, R119). -/
def State.restartTick (s : State) : State := { s with dru := { s.dru with tickLeft := s.image.global.rampTick } }

/-- RAMP_TICK (R119, R120): every drive moves toward its allocation, and the stops that this ends are ended. -/
def execRampTick (s : State) : Host.Outcome State Fault Refusal :=
  .next ((Ev.begin s.tickDrives.restartTick).checkStops).finish

/-- HOLD_WINDOW_EXPIRY (R165). -/
def execHoldWindowExpiry (hatch : Hatch) (s : State) : Host.Outcome State Fault Refusal :=
  .next (if (s.window hatch).isLive then ((Ev.begin s).windowExpires hatch).finish else s)

/-- The link window timer stopped (R166). -/
def State.stopLink (s : State) : State := { s with ls := { s.ls with link := none } }

/-- LINK_WINDOW_EXPIRY (R166): the lapse, or LINK_LOST while LINK_LAPSE is set. -/
def execLinkWindowExpiry (s : State) : Host.Outcome State Fault Refusal :=
  .next (if s.ls.link.isSome then
      if s.ls.lapse then ((Ev.begin s.stopLink).hardStop .linkLost).finish else (Ev.begin s).linkLapses.finish
    else s)

end Sys2Proof.Machine
end

