-- ==== Sys2Proof/Machine/Dispatch.lean ====
section
/-! DEFINITION. The effect of a command on everything but the queue: one arm for each row of the table. -/

namespace Sys2Proof.Machine

def exec (i : Instr) (s : State) : Host.Outcome State Fault Refusal :=
  match i with
  | .powerUp straps => Sys2Proof.Machine.execPowerUp straps s
  | .resetN straps => Sys2Proof.Machine.execResetN straps s
  | .resetDeviceTaken straps => Sys2Proof.Machine.execResetDeviceTaken straps s
  | .cFrameArrives run => Sys2Proof.Machine.execCFrameArrives run s
  | .stop run => Sys2Proof.Machine.execStop run s
  | .hold run => Sys2Proof.Machine.execHold run s
  | .keep run => Sys2Proof.Machine.execKeep run s
  | .queueHeadReject => Sys2Proof.Machine.execQueueHeadReject s
  | .readItem => Sys2Proof.Machine.execReadItem s
  | .writeItem => Sys2Proof.Machine.execWriteItem s
  | .clearFlags => Sys2Proof.Machine.execClearFlags s
  | .acknowledgeHatches => Sys2Proof.Machine.execAcknowledgeHatches s
  | .acknowledgeDevice => Sys2Proof.Machine.execAcknowledgeDevice s
  | .enterConfig => Sys2Proof.Machine.execEnterConfig s
  | .loadRecord => Sys2Proof.Machine.execLoadRecord s
  | .readRecord => Sys2Proof.Machine.execReadRecord s
  | .leaveConfig => Sys2Proof.Machine.execLeaveConfig s
  | .resetDevice => Sys2Proof.Machine.execResetDevice s
  | .openHatches => Sys2Proof.Machine.execOpenHatches s
  | .closeHatches => Sys2Proof.Machine.execCloseHatches s
  | .pause => Sys2Proof.Machine.execPause s
  | .resume => Sys2Proof.Machine.execResume s
  | .manualEnter => Sys2Proof.Machine.execManualEnter s
  | .manualLeave => Sys2Proof.Machine.execManualLeave s
  | .fieldReqJudge => Sys2Proof.Machine.execFieldReqJudge s
  | .transmitStart => Sys2Proof.Machine.execTransmitStart s
  | .transmitEnd => Sys2Proof.Machine.execTransmitEnd s
  | .neutralSend => Sys2Proof.Machine.execNeutralSend s
  | .partWriteBegin => Sys2Proof.Machine.execPartWriteBegin s
  | .alertReadBegin => Sys2Proof.Machine.execAlertReadBegin s
  | .forwardBegin => Sys2Proof.Machine.execForwardBegin s
  | .scanPollBegin => Sys2Proof.Machine.execScanPollBegin s
  | .requestSent => Sys2Proof.Machine.execRequestSent s
  | .inputsReply run => Sys2Proof.Machine.execInputsReply run s
  | .outputsReply run => Sys2Proof.Machine.execOutputsReply run s
  | .statusReply run => Sys2Proof.Machine.execStatusReply run s
  | .fFrameDiscard run => Sys2Proof.Machine.execFFrameDiscard run s
  | .replyTimeout => Sys2Proof.Machine.execReplyTimeout s
  | .scanTimerExpiry node => Sys2Proof.Machine.execScanTimerExpiry node s
  | .refreshTimerExpiry node => Sys2Proof.Machine.execRefreshTimerExpiry node s
  | .signalAgeExpiry signals => Sys2Proof.Machine.execSignalAgeExpiry signals s
  | .stepTimeout hatch => Sys2Proof.Machine.execStepTimeout hatch s
  | .settleExpiry hatch => Sys2Proof.Machine.execSettleExpiry hatch s
  | .rampTick => Sys2Proof.Machine.execRampTick s
  | .holdWindowExpiry hatch => Sys2Proof.Machine.execHoldWindowExpiry hatch s
  | .linkWindowExpiry => Sys2Proof.Machine.execLinkWindowExpiry s
  | .estopInChange active => Sys2Proof.Machine.execEstopInChange active s
  | .estopDebounceActive => Sys2Proof.Machine.execEstopDebounceActive s
  | .estopDebounceReleased => Sys2Proof.Machine.execEstopDebounceReleased s
  | .storeComplete done => Sys2Proof.Machine.execStoreComplete done s
  | .storeWriteTimeout => Sys2Proof.Machine.execStoreWriteTimeout s

end Sys2Proof.Machine
end

