-- ==== Sys2Proof/Safety.lean ====
section
/-! DEFINITION. What counts as a safe state, in the terms the claims use, and what the blocks of the hatches leave alone. -/

namespace Sys2Proof.Machine

/-- The state with everything blanked that the Hatch Sequencers, the Flow Allocator, the Drive Ramp Unit, the output
image, the manual shadows and the offering of notices write. Two states with the same `still` agree on the device mode,
the tables, the store, the sticky flags apart, the receive queue, the Stop Logic, LINK_LAPSE and the link window timer,
the sensor image, the F-line apart from the F forward queue, and the waiting commands. -/
def State.still (s : State) : State :=
  { s with
      mu := { s.mu with flags := 0 },
      cp := { s.cp with tx := [] },
      ls := { s.ls with windows := Tab.fill 12 .stopped },
      hatches := Tab.fill 12 {},
      fa := {},
      dru := { s.dru with drives := Tab.fill 96 {} },
      oir := { s.oir with image := Tab.fill 47 (Tab.fill 8 {}) },
      flc := { s.flc with forward := [] },
      shadows := Tab.fill 47 (Tab.fill 8 0) }

/-- The three queues of frames hold at most 8 frames each (R132, R137, R141). -/
def State.QueuesBounded (s : State) : Prop :=
  s.cp.rx.length ≤ 8 ∧ s.cp.tx.length ≤ 8 ∧ s.flc.forward.length ≤ 8

/-- A hatch that is IDLE or TRIPPED moves nothing. -/
def SeqState.atRest : SeqState → Bool
  | .idle | .tripped => true
  | .running | .held | .stopping | .manual => false

/-- No motion without its release: outside OPERATE motion is not released and every hatch is IDLE; while MOTION_EN is
deasserted every hatch is IDLE or TRIPPED; a hatch that is not enabled is IDLE (R5, R169, R173). -/
structure State.MotionSafe (s : State) : Prop where
  outside : s.mu.mode ≠ .operate → s.motionEn = false ∧ ∀ h, (s.hatch h).state = .idle
  withdrawn : s.motionEn = false → ∀ h, (s.hatch h).state.atRest = true
  disabled : ∀ h, s.enabled h = false → (s.hatch h).state = .idle

/-- A console may drive the channel now: FREE, or GUARDED by a hatch that is MANUAL with a live hold window (R160). -/
def State.mayDrive (s : State) (n : Node) (c : Chan) : Prop :=
  match (s.image.chan n c).cls with
  | .free => True
  | .owned => False
  | .guarded =>
    (s.hatch (s.image.chan n c).hatch).state = .manual ∧ (s.window (s.image.chan n c).hatch).isLive = true

/-- A console frame that may be sent on the F-line: a FIELD_REQ of a console to a field node, whose every write pair
names a channel the console may drive now. -/
def State.MaySend (s : State) (f : Frame) : Prop :=
  f.kind = .fieldReq ∧ (consoleAt f.srcAddr).isSome = true ∧ (parseFieldReq f.payload).isSome = true ∧
    ∃ n, nodeAt f.destAddr = some n ∧ ∀ p ∈ framePairs f, s.mayDrive n p.1

/-- Every console frame that waits for the F-line may be sent on it (R160, last sentence). -/
def State.ForwardSafe (s : State) : Prop := ∀ f ∈ s.flc.forward, s.MaySend f

/-- The flow queue and the admission list name only hatches that hold their place there, each hatch once: a request only
for a hatch in FLOW_WAIT (R96), a step unit only for one in ACTING or SETTLING, a reservation only for a MANUAL one
(R97). -/
structure State.FlowMatched (s : State) : Prop where
  queued : ∀ r ∈ s.fa.queue, (s.hatch r.hatch).waiting = true
  queuedOnce : (s.fa.queue.map FlowRequest.hatch).Nodup
  step : ∀ r l, FlowUnit.step r l ∈ s.fa.units → (s.hatch r.hatch).admitted = true
  manual : ∀ h v, FlowUnit.manual h v ∈ s.fa.units → (s.hatch h).state = .manual
  listedOnce : (s.fa.units.map FlowUnit.hatch).Nodup

/-- A RUNNING, HELD or STOPPING hatch names its operation and its step (R66). -/
def State.StepsNamed (s : State) : Prop :=
  ∀ h, (s.hatch h).state = .running ∨ (s.hatch h).state = .held ∨ (s.hatch h).state = .stopping →
    (s.hatch h).operation ≠ none ∧ (s.hatch h).step ≠ none

/-- The rest state of each hatch is the one that Table 1-8 gives for the sensor image (R15, R16): UNKNOWN while the hatch
is not enabled or a classification signal is unbound or not FRESH. A cleat group takes part when its actuator role is
bound, and is full when its ENG count equals the group size of a BINARY actuator (log entry 12). -/
def State.RestFollows (s : State) : Prop :=
  ∀ h,
    let r := s.hatchRec h
    let reads := fun (x : SigRole) (ok : Int → Prop) =>
      ∃ i, r.signalOf x = some i ∧ (s.signal i).quality = .fresh ∧ ok (s.signal i).value
    let isTrue := fun (x : SigRole) => reads x fun v => v ≠ 0
    let group := fun (x : ActRole) (y : SigRole) => (x, y) ∈ [(ActRole.pCleat, SigRole.pcEng), (.sCleat, .scEng), (.cCleat, .ccEng)]
    let known :=
      (∀ x ∈ [SigRole.pSeated, .sSeated, .pOpenEnd, .sOpenEnd], reads x fun _ => True) ∧
        ∀ x y, group x y → r.actuatorOf x ≠ none → reads y fun _ => True
    let full := ∀ x y a, group x y → r.actuatorOf x = some a →
      ∃ f, (s.image.actuator.read a).kind = .binary f ∧ reads y fun v => v = f.groupSize
    let seated := isTrue .pSeated ∧ isTrue .sSeated
    let stowed := isTrue .pOpenEnd ∧ isTrue .sOpenEnd
    (s.enabled h = false ∨ ¬ known → (s.hatch h).rest = .unknown) ∧
    (s.enabled h = true → known →
      (seated → full → (s.hatch h).rest = .closedSecured) ∧
      (seated → ¬ full → (s.hatch h).rest = .closedUnsecured) ∧
      (¬ seated → stowed → (s.hatch h).rest = .opened) ∧
      (¬ seated → ¬ stowed → (s.hatch h).rest = .intermediate))

/-- The channel of a BINARY actuator of a hatch that the actuator alone drives: OWNED, named by no other actuator that is
bound to a hatch, and the actuator bound to no other hatch (what stages 4 and 5 of Table 12-3 require). -/
def State.soleChannel (s : State) (h : Hatch) (a : ActId) : Prop :=
  let r := s.image.actuator.read a
  s.image.isProp a = false ∧ (s.image.chan r.node r.channel).cls = .owned ∧
    (∀ k, ∀ b ∈ (s.hatchRec k).actIds, b ≠ a →
      (s.image.actuator.read b).node ≠ r.node ∨ (s.image.actuator.read b).channel ≠ r.channel) ∧
    ∀ k, k ≠ h → a ∉ (s.hatchRec k).actIds

/-- The value of the channel of an actuator in the output image. -/
def State.actValue (s : State) (a : ActId) : Nat :=
  (s.outChan (s.image.actuator.read a).node (s.image.actuator.read a).channel).value

/-! ### Table 12-3, as the manual states it -/

/-- A profile of an enabled hatch: its two sequences are used (R54). -/
def TableImage.Used (im : TableImage) (p : Profile) : Prop :=
  ∃ h, (im.hatch.read h).enabled = true ∧ (im.hatch.read h).profile = p

/-- A step of a used sequence, not after its final step (R54). -/
def TableImage.Reached (im : TableImage) (p : Profile) (o : Op) (n : StepNo) : Prop :=
  im.Used p ∧ ∀ m, m < n → (im.stepOf p o m).last = false

/-- A step number after the final step of a sequence. -/
def TableImage.AfterFinal (im : TableImage) (p : Profile) (o : Op) (k : StepNo) : Prop :=
  ∃ f, f < k ∧ (im.stepOf p o f).last = true

/-- A condition of one of the four sets that a step names. -/
def TableImage.StepReads (im : TableImage) (r : StepRec) (ref : CondRef) : Prop :=
  ∃ i c, (i = r.startSet ∨ i = r.holdSet ∨ i = r.tripSet ∨ i = r.doneSet) ∧ c ∈ im.setOf i ∧
    (im.condition.read c).ref = ref

/-- Stage 2: the step fails. -/
def TableImage.StepFails (im : TableImage) (p : Profile) (o : Op) (n : StepNo) : Prop :=
  let r := im.stepOf p o n
  (∃ a ∈ r.actionList,
    match a.command with
    | .sideA | .sideB => a.role.kind = .proportional
    | .outTo _ _ | .inTo _ _ => a.role.kind = .binary) ∨
  ¬ (r.actionList.map (·.role)).Nodup ∨
  (∃ k, r.reentry = some k ∧ im.AfterFinal p o k) ∨ ∃ k, r.reverse = some k ∧ im.AfterFinal p o.opposite k

/-- A signal in use (R18). -/
def TableImage.SignalUsed (im : TableImage) (i : SignalId) : Prop :=
  (∃ h x, (im.hatch.read h).enabled = true ∧ (im.hatch.read h).signalOf x = some i) ∨
  (∃ p, (im.pump.read p).running = some i) ∨ im.global.heelSignal = some i ∨
  ∃ p o n, im.Reached p o n ∧ im.StepReads (im.stepOf p o n) (.direct i)

/-- Stage 3: the signal fails. -/
def TableImage.SignalFails (im : TableImage) (i : SignalId) : Prop :=
  match (im.signal.read i).node with
  | some n => (im.node.read n).inMap = false
  | none => im.SignalUsed i

/-- An actuator in use: bound to an enabled hatch (R9). -/
def TableImage.ActUsed (im : TableImage) (a : ActId) : Prop :=
  ∃ h x, (im.hatch.read h).enabled = true ∧ (im.hatch.read h).actuatorOf x = some a

/-- Stage 4: the actuator fails. -/
def TableImage.ActFails (im : TableImage) (a : ActId) : Prop :=
  let r := im.actuator.read a
  let ch := im.chan r.node r.channel
  (∃ f, r.kind = .proportional f ∧ (f.maxFlow < f.minFlow ∨ ¬ (f.minFlow ≤ f.creepFlow ∧ f.creepFlow ≤ f.maxFlow))) ∨
  ch.cls ≠ .owned ∨
  (match r.kind with
    | .binary _ => ch.kind = .proportional
    | .proportional _ => ch.kind = .binary) ∨
  (im.node.read r.node).inMap = false ∨
  ∃ b, b < a ∧ im.ActUsed b ∧ (im.actuator.read b).node = r.node ∧ (im.actuator.read b).channel = r.channel

/-- Stage 5: the hatch fails. -/
def TableImage.HatchFails (im : TableImage) (h : Hatch) : Prop :=
  let r := im.hatch.read h
  (∃ x a, r.actuatorOf x = some a ∧
    ((match (im.actuator.read a).kind with
      | .binary _ => x.kind = .proportional
      | .proportional _ => x.kind = .binary) ∨
      ∃ side, x.side = some side ∧ (im.actuator.read a).side ≠ side)) ∨
  (∃ x y k a, k < h ∧ (im.hatch.read k).enabled = true ∧ (im.hatch.read k).actuatorOf y = some a ∧
    r.actuatorOf x = some a) ∨
  (∃ x y a, x ≠ y ∧ r.actuatorOf x = some a ∧ r.actuatorOf y = some a) ∨
  ∃ o n, im.Reached r.profile o n ∧
    ((∃ a ∈ (im.stepOf r.profile o n).actionList, r.actuatorOf a.role = none) ∨
      (∃ x, im.StepReads (im.stepOf r.profile o n) (.role x) ∧ r.signalOf x = none) ∨
      ∃ x ∈ (im.stepOf r.profile o n).actionList, ∃ a f, r.actuatorOf x.role = some a ∧
        (im.actuator.read a).kind = .proportional f ∧
        (r.signalOf f.posRole = none ∨ r.signalOf f.outEndRole = none ∨ r.signalOf f.inEndRole = none))

/-- A record of the stage fails, and the failure names this table id and index (Table 12-3). -/
def TableImage.Fails (im : TableImage) (stage : Nat) (named : Nat × Nat) : Prop :=
  match stage with
  | 1 => ∃ p o, im.Used p ∧ (∀ n, (im.stepOf p o n).last = false) ∧ named = (9, p.val * 48 + o.code * 24 + 23)
  | 2 => ∃ p o n, im.Reached p o n ∧ im.StepFails p o n ∧ named = (9, p.val * 48 + o.code * 24 + n.val)
  | 3 => ∃ i, im.SignalFails i ∧ named = (4, i.val)
  | 4 => ∃ a, im.ActUsed a ∧ im.ActFails a ∧ named = (7, a.val)
  | 5 => ∃ h, (im.hatch.read h).enabled = true ∧ im.HatchFails h ∧ named = (8, h.val + 1)
  | _ => False

/-- B plus the admitted minimum does not exceed A (R105, R106). -/
def State.FlowFits (s : State) : Prop := s.fa.demand + s.fa.minimum ≤ s.fa.avail

/-- The available flow A is the raw flow of the running pumps less the reserve, and 0 where the reserve is not exceeded
(R34). -/
def State.AvailFollows (s : State) : Prop := s.fa.avail = s.rawFlow - s.image.global.reserve

/-- The tables that hatches run under, and the stored image where start-up would take it, pass the validation of Table
12-3 (R176, R177, R179). -/
def State.TablesPass (s : State) : Prop :=
  (s.mu.mode = .operate ∨ s.mu.mode = .storing → s.mu.active.validate = none) ∧
    (s.mu.store.crc = some s.mu.store.image.crc → s.mu.store.image.validate = none)

/-- The flow request of a step (R95). -/
def State.requestOf (s : State) (h : Hatch) (r : StepRec) : FlowRequest :=
  { hatch := h, dStep := ((s.stepBinary h r).map fun p => s.image.demand p.1).sum,
    actions := (s.stepDrives h r).map fun d => (d.act, s.image.minFlow d.act) }

/-- The flow lists, the drives and the allocations follow the rules: in OPERATE the step and the marker of an enabled
hatch lie within its sequence (R54); a request, waiting or admitted, is the one R95 gives for the hatch's step; the
actions of a step unit are some of its request's, in their order, each IN_MOTION with, unless paused, a target of at least
its minimum (R97, R115); and every action in motion has the allocation of R105. -/
structure State.AllocationsFollow (s : State) : Prop where
  stepReached : s.mu.mode = .operate → ∀ h o n, s.enabled h = true →
    ((s.hatch h).state = .running ∨ (s.hatch h).state = .held ∨ (s.hatch h).state = .stopping) →
    (s.hatch h).operation = some o → (s.hatch h).step = some n → s.image.Reached (s.hatchRec h).profile o n
  markerReached : s.mu.mode = .operate → ∀ h o n, s.enabled h = true → (s.hatch h).marker = some (o, n) →
    s.image.Reached (s.hatchRec h).profile o n
  queued : ∀ q ∈ s.fa.queue, ∃ r, s.currentStep q.hatch = some r ∧ q = s.requestOf q.hatch r
  listed : ∀ q l, FlowUnit.step q l ∈ s.fa.units →
    (∃ r, s.currentStep q.hatch = some r ∧ q = s.requestOf q.hatch r) ∧ l.Sublist q.actions ∧
      ∀ z ∈ l, (s.drive z.1).state = .inMotion ∧ ((s.drive z.1).paused = false → z.2 ≤ (s.drive z.1).target)
  given : ∀ p ∈ allocations s.fa.avail s.fa.demand s.shares, (s.drive p.1).alloc = p.2

/-- B plus the allocations of all proportional actions in motion does not exceed A (R106). -/
def State.AllocationsFit (s : State) : Prop :=
  s.fa.demand + (s.fa.motion.map fun z => (s.drive z.1).alloc).sum ≤ s.fa.avail

/-- The command that serves an operation request at the queue head. -/
def OpReq.command : OpReq → Instr
  | .opening => .openHatches
  | .closing => .closeHatches
  | .pause => .pause
  | .resume => .resume
  | .manualEnter => .manualEnter
  | .manualLeave => .manualLeave

/-- The operation that OPEN or CLOSE asks for. -/
def OpReq.operation : OpReq → Option Op
  | .opening => some .opening
  | .closing => some .closing
  | .pause | .resume | .manualEnter | .manualLeave => none

/-- The cells of Table 5-3 that leave the status record as it was: a result of NO_CHANGE or a refusal, given by the
state of the hatch, the request and the console. None for the cells that change the record, and for those that R68 and
R89 decide. -/
def tableResult (q : OpReq) (r : HatchStatus) (c : Console) : Option OpResult :=
  let owner := r.owner == some c
  match q, r.state with
  | .opening, .running | .opening, .held =>
    if !owner then some .refusedOwner else if r.operation = some .opening then some .noChange else none
  | .closing, .running | .closing, .held =>
    if !owner then some .refusedOwner else if r.operation = some .closing then some .noChange else none
  | .opening, .stopping | .closing, .stopping => if owner then none else some .refusedOwner
  | .pause, .held => if r.active.pause then some .noChange else none
  | .pause, .idle | .pause, .stopping | .pause, .tripped | .pause, .manual => some .noChange
  | .pause, .running => none
  | .resume, .idle => some .refusedState
  | .resume, .running => if owner then some .noChange else some .refusedOwner
  | .resume, .held => if owner then none else some .refusedOwner
  | .manualEnter, .manual => if owner then some .noChange else some .refusedOwner
  | .manualLeave, .idle => some .noChange
  | .manualLeave, .manual => if owner then none else some .refusedOwner
  | .opening, .manual | .closing, .manual | .resume, .stopping | .resume, .manual | .manualEnter, .running
  | .manualEnter, .held | .manualEnter, .stopping | .manualLeave, .running | .manualLeave, .held
  | .manualLeave, .stopping => if owner then some .refusedState else some .refusedOwner
  | .opening, .tripped | .closing, .tripped | .resume, .tripped | .manualEnter, .tripped | .manualLeave, .tripped =>
    some .refusedTripped
  | .opening, .idle | .closing, .idle | .manualEnter, .idle => none

/-- The refusals that R68 gives an OPEN or CLOSE in IDLE, and R89 a MANUAL_ENTER before its reservation is tested. -/
def State.idleRefusal (s : State) (q : OpReq) (r : HatchStatus) : Option OpResult :=
  if r.state = .idle ∧ (q = .opening ∨ q = .closing ∨ q = .manualEnter) then
    if s.motionEn = false then some .refusedMotion else if s.ls.lapse then some .refusedLink else none
  else none

/-- The result of a request for a hatch that it leaves unchanged: the three tests of R67 in their order. -/
def State.unchangedResult (s : State) (q : OpReq) (c : Console) (h : Hatch) : Option OpResult :=
  if s.enabled h = false then some .badHatch
  else if s.mu.mode = .config ∨ s.mu.mode = .storing then some .refusedConfig
  else (tableResult q (s.hatch h) c).or (s.idleRefusal q (s.hatch h))

/-- Table 12-2: the values that a field of the GLOBAL record may take, by its number in the order of Table 8-12, as the
two bytes of WRITE_ITEM give them. -/
def globalFieldOk (field v : Nat) : Prop :=
  match field with
  | 1 => v ≤ 1023
  | 2 => 10 ≤ v ∧ v ≤ 100 ∧ v % 10 = 0
  | 3 => 100 ≤ v ∧ v ≤ 1000 ∧ v % 50 = 0
  | 4 => v = 0 ∨ 500 ≤ v ∧ v ≤ 10000 ∧ v % 100 = 0
  | 5 => 2 ≤ v ∧ v ≤ 20
  | 6 => 20 ≤ v ∧ v ≤ 1000
  | 7 => 100 ≤ v ∧ v ≤ 1000
  | 8 => v ≤ 1
  | 9 => v ≤ 63
  | 10 => v ≤ 1500
  | 11 => v ≤ 255 ∨ v = 0xFFFF
  | 12 => v ≤ 2
  | 13 => v ≤ 3
  | _ => False

/-- The GLOBAL record with a field placed that takes the value, by its number and its codes (Tables 8-11 and 12-2). -/
def GlobalRec.placed (g : GlobalRec) (field v : Nat) : GlobalRec :=
  match field with
  | 1 => { g with reserve := v }
  | 2 => { g with rampTick := v }
  | 3 => { g with holdWindow := v }
  | 4 => { g with linkWindow := v }
  | 5 => { g with replyTimeout := v }
  | 6 => { g with scanPeriod := v }
  | 7 => { g with outputRefresh := v }
  | 8 => { g with readbackEnable := decide (v = 1) }
  | 9 => { g with readbackTolerance := v }
  | 10 => { g with heelSoft := v }
  | 11 => { g with heelSignal := if v = 0xFFFF then none else some (Fin.ofNat 256 v) }
  | 12 => { g with cRate := if v = 0 then .k57_6 else if v = 1 then .k115_2 else .k230_4 }
  | 13 => { g with fRate := if v = 0 then .k38_4 else if v = 1 then .k57_6 else if v = 2 then .k115_2 else .k230_4 }
  | _ => g

/-! ### What a step entry does -/

/-- A request fits beside the units admitted (R98), and A is above 0 (R110). -/
def State.hasRoom (s : State) (units : List FlowUnit) (q : FlowRequest) : Prop :=
  let held := (units.map FlowUnit.binary).sum + minSum (units.flatMap FlowUnit.inMotion)
  let asked := q.dStep + (q.actions.map (·.2)).sum
  0 < s.fa.avail ∧ (held + asked ≤ s.fa.avail ∨ asked = 0)

/-- The trip causes that the entry of a step finds (R71, R85). -/
def State.tripsFound (s : State) (h : Hatch) (r : StepRec) : TripSet :=
  { tripCondition := !s.setHolds h r.tripSet, nodeLost := s.boundLost h, localEstop := s.roleTrue h .localEstop }

/-- The hold causes that the entry of a step finds, HOLD_LAPSE apart (R71). -/
def State.holdsFound (s : State) (h : Hatch) (r : StepRec) : HoldSet :=
  { condition := !(s.setHolds h r.startSet && s.setHolds h r.holdSet), nodeFault := s.boundFault h,
    linkLapse := s.ls.lapse }

/-- The outcome in `t` of the entry of step `n` of operation `o` by hatch `h` at an event taken in `s`, where something is
against it, by the table of R71: TRIPPED with every trip cause found; else HELD with every hold cause found; else HELD
with HOLD_LAPSE where the step is attended and its window LAPSED. `was` is the record that enters (its operation, step,
phase and timers count for nothing), `w` the hold window at the entry. -/
def State.EntryBarred (s t : State) (h : Hatch) (was : HatchStatus) (o : Op) (n : StepNo) (w : Window) : Prop :=
  let r := s.stepRec h o n
  let entered : HatchStatus :=
    { was with
        operation := some o, step := some n, phase := none, stepTimer := none, settleTimer := none }
  let trips := s.tripsFound h r
  let held := fun (causes : HoldSet) =>
    { entered with
        state := .held, active := causes, history := causes,
        latched := causes.diff { (s.hatchRec h).resume with pause := false } }
  (trips ≠ {} →
    t.hatch h =
      { entered with
          state := .tripped, trips := trips, firstTrip := trips.first, request := none, marker := some (o, n),
          active := {}, latched := {}, history := {} } ∧
    t.window h = .stopped) ∧
  (trips = {} → s.holdsFound h r ≠ {} → t.hatch h = held (s.holdsFound h r) ∧ t.window h = w) ∧
  (trips = {} → s.holdsFound h r = {} → r.attended = true ∧ w = .lapsed →
    t.hatch h = held { holdLapse := true } ∧ t.window h = .lapsed)

/-- The outcome in `t` of the entry of step `n` of operation `o` by hatch `h` at an event taken in `s`, by the table
of R71: TRIPPED or HELD where something is against it; else the request joins the tail of the flow queue, where the hatch
waits behind a head that does not fit, or is admitted (R99, R72, R73). `queue` and `units` are the flow lists that the
request meets. -/
def State.StepEntered (s t : State) (h : Hatch) (was : HatchStatus) (o : Op) (n : StepNo) (w : Window)
    (queue : List FlowRequest) (units : List FlowUnit) : Prop :=
  let r := s.stepRec h o n
  let running : HatchStatus :=
    { was with
        state := .running, operation := some o, step := some n, phase := some .flowWait, stepTimer := none,
        settleTimer := none }
  let clear : Prop := s.tripsFound h r = {} ∧ s.holdsFound h r = {} ∧ ¬ (r.attended = true ∧ w = .lapsed)
  let request := s.requestOf h r
  let done := s.setHolds h r.doneSet
  s.EntryBarred t h was o n w ∧
  (clear → (∀ q more, queue ++ [request] = q :: more → ¬ s.hasRoom units q) →
    t.hatch h = running ∧ t.window h = w ∧ t.fa.queue = queue ++ [request] ∧ t.fa.units = units) ∧
  (clear → queue = [] → s.hasRoom units request → (done = false ∨ r.settle ≠ 0) →
    t.hatch h =
      { running with
          phase := if done then some .settling else some .acting, stepTimer := some (r.timeout * 100),
          settleTimer := if done then some r.settle else none } ∧
    t.window h = w ∧ t.fa.queue = [] ∧ t.fa.units.map FlowUnit.hatch = units.map FlowUnit.hatch ++ [h])

/-- The drive of a PROPORTIONAL actuator that the hatch alone moves: bound to no other hatch, and named in no request and
no unit of another hatch. -/
def State.soleDrive (s : State) (h : Hatch) (a : ActId) : Prop :=
  (∀ k, k ≠ h → a ∉ (s.hatchRec k).actIds) ∧ (∀ q ∈ s.fa.queue, q.hatch ≠ h → ∀ z ∈ q.actions, z.1 ≠ a) ∧
    ∀ y ∈ s.fa.units, y.hatch ≠ h → ∀ z ∈ y.inMotion, z.1 ≠ a

/-- What an entry to HELD or STOPPING from step `r` in `s` leaves of the outputs in `t` (R77 steps 2 and 3, R82, R120):
every binary channel of the step at 0, and every drive of the hatch that was in motion STOPPING with allocation 0, or
AT_REST where its commanded flow was 0. Said of the channels and drives that the hatch alone uses. -/
def State.OutputsWithdrawn (s t : State) (h : Hatch) (r : StepRec) : Prop :=
  (∀ p ∈ s.stepBinary h r, s.soleChannel h p.1 → t.actValue p.1 = 0) ∧
    ∀ a ∈ s.propActs h, s.soleDrive h a → t.drive a = (s.drive a).withdrawn

/-! ### What neutralising leaves -/

/-- The channel is on no bound actuator, which stage 4 of Table 12-3 asks of a channel that is not OWNED. -/
def State.undriven (s : State) (n : Node) (ch : Chan) : Prop :=
  ∀ k, ∀ b ∈ (s.hatchRec k).actIds, (s.image.actuator.read b).node ≠ n ∨ (s.image.actuator.read b).channel ≠ ch

/-- What the neutralising of a hatch at an event taken in `s` leaves in `t` (R159): no queued frame writes a GUARDED
channel of it; each such channel has a neutral shadow, and where its shadow was not neutral it is neutral in the output
image and dirty, but that a channel held neutral already is not written (R146). -/
def State.Neutralised (s t : State) (h : Hatch) : Prop :=
  (∀ n ch, (s.image.chan n ch).cls = .guarded → (s.image.chan n ch).hatch = h →
    let v := s.image.neutralOf n ch
    t.shadow n ch = v ∧
    (s.undriven n ch → s.shadow n ch ≠ v →
      t.outChan n ch = if (s.outChan n ch).value = v then s.outChan n ch else { value := v, dirty := true })) ∧
  ∀ f ∈ t.flc.forward, s.image.writesGuarded h f = none

/-- The notice that the neutralising of a hatch offers for the one frame of the F forward queue, where it is removed: a
BLOCKED to its console with its tag, the first channel of the hatch that it writes, and the reason of Table 10-3. -/
def State.BlockedNotice (s : State) (h : Hatch) (reason : Byte) (x : TxEntry) : Prop :=
  ∃ f n c before p after, s.flc.forward = [f] ∧ nodeAt f.destAddr = some n ∧ consoleAt f.srcAddr = some c ∧
    framePairs f = before ++ p :: after ∧
    (∀ y ∈ before, ¬ ((s.image.chan n y.1).cls = .guarded ∧ (s.image.chan n y.1).hatch = h)) ∧
    (s.image.chan n p.1).cls = .guarded ∧ (s.image.chan n p.1).hatch = h ∧
    x = .own .notice c.addr f.tag [3#8, byte p.1.val, reason] false

/-! ### What an event's changes of signals do -/

/-- What the update events of one event taken in `s` leave in `u` of a hatch in motion at step `r`, one of whose current
sets reads a changed signal (R28, R50, Table 3-4), and of its drives. A trip set that fails trips it. In RUNNING a hold
set that fails takes it to HELD with CONDITION (R74, R77); else the done set decides the phase (R73), and a step that ends
with it completes the operation (R76) or is followed by the entry of the next. In HELD CONDITION becomes active or ends by
the start and hold sets, and a hatch that nothing else holds resumes by AUTO and enters its step again (R78, R81). A drive
in motion of a hatch that goes on ends when its end switch is true or its stop position reached, at an update of either
(R118), else an update of its position or of the heel reforms its target (R117). A STOPPING drive ends likewise, and the
stop of a hatch ends with the last of them (R120, R83, R84); it stays where the hatch enters no step at the event. The
notices are those of R92, with the record after the occasion (log entries 14 and 15). `steady` says that no pump's running
signal changes, `alone` that every other hatch is IDLE or TRIPPED and every drive in motion is of this hatch, RUNNING,
`quiet` also that no frame waits to be sent and no request for flow. -/
def State.UpdatesDecide (s u : State) (h : Hatch) (r : StepRec) : Prop :=
  let was := s.hatch h
  let changed := fun (i : SignalId) =>
    (u.signal i).value ≠ (s.signal i).value ∨ (u.signal i).quality ≠ (s.signal i).quality
  let reads := fun (i : SetId) => ∃ c j, c ∈ s.image.setOf i ∧
    (s.image.condition.read c).ref.resolve (s.hatchRec h) = some j ∧ changed j
  let becomes := fun (q : HatchStatus) => u.hatch h = { q with rest := (u.hatch h).rest }
  let start := u.setHolds h r.startSet
  let hold := u.setHolds h r.holdSet
  let trip := u.setHolds h r.tripSet
  let done := u.setHolds h r.doneSet
  let running : Prop := was.state = .running ∧
    (reads r.holdSet ∨ reads r.tripSet ∨ was.phase ≠ some .flowWait ∧ reads r.doneSet)
  let held : Prop := was.state = .held ∧ (reads r.startSet ∨ reads r.holdSet ∨ reads r.tripSet)
  let goesOn : Prop := trip = true ∧ u.roleTrue h .localEstop = false
  let steady : Prop := ∀ p i, (s.image.pump.read p).running = some i → ¬ changed i
  let now : State := { s with signals := u.signals, flc := { s.flc with nodes := u.flc.nodes } }
  let alone : Prop := (∀ j, j ≠ h → (s.hatch j).state = .idle ∨ (s.hatch j).state = .tripped) ∧
    ∀ a, (s.drive a).state = .inMotion → was.state = .running ∧ a ∈ s.propActs h
  let quiet : Prop := alone ∧ s.cp.tx = [] ∧ s.fa.queue = []
  let event := fun (occasion detail : Nat) (m : Option (Op × StepNo)) (state owner : Byte) =>
    TxEntry.own .notice 0#8 0#8
      [4#8, byte h.number, byte occasion, state, optByte (m.map (·.1.code)), optByte (m.map (·.2.val)),
        byte (u.hatch h).rest.code, byte detail, owner] false
  let touched := fun (y : SigRole) => ∃ j, (s.hatchRec h).signalOf y = some j ∧ changed j
  let ends := fun (f : PropFields) (dir : Direction) (stop : Nat) =>
    (touched f.posRole ∨ touched (f.endRole dir)) ∧
      (u.roleTrue h (f.endRole dir) = true ∨ ∃ p, u.position h f = some p ∧ match dir with
        | .outward => (stop : Int) ≤ p
        | .inward => p ≤ stop)
  (running ∨ held ∨ was.state = .stopping ∧ reads r.tripSet → trip = false →
    (u.hatch h).state = .tripped ∧ (u.hatch h).trips.tripCondition = true ∧
    (u.hatch h).firstTrip = some .tripCondition ∧ (u.hatch h).marker = was.here ∧ u.window h = .stopped) ∧
  (running → goesOn → hold = false →
    becomes { was with
                state := .held, phase := none, stepTimer := none, settleTimer := none,
                active := { condition := true },
                latched := { condition := !(s.hatchRec h).resume.condition }, history := { condition := true } } ∧
    u.window h = s.window h ∧ (∀ y ∈ u.fa.queue, y.hatch ≠ h) ∧ (∀ y ∈ u.fa.units, y.hatch ≠ h) ∧
    (∀ p ∈ s.stepBinary h r, s.soleChannel h p.1 → u.actValue p.1 = 0) ∧
    ∀ a ∈ s.propActs h, s.soleDrive h a → u.drive a = (s.drive a).withdrawn ∨ u.drive a = {}) ∧
  (steady → running → goesOn → hold = true → was.phase = some .acting → done = true →
    (r.settle ≠ 0 →
      becomes { was with phase := some .settling, settleTimer := some r.settle } ∧
      ∀ p ∈ s.stepBinary h r, s.soleChannel h p.1 → u.actValue p.1 = 0) ∧
    (r.settle = 0 → r.last = true →
      becomes { was with
                  state := .idle, operation := none, step := none, phase := none, owner := none, marker := none,
                  request := none, stepTimer := none, settleTimer := none, active := {}, latched := {},
                  history := {} } ∧
      u.window h = .stopped ∧
      ((∀ y ∈ s.fa.queue, y.hatch ≠ h) → ∀ y ∈ u.fa.units, y.hatch ≠ h) ∧
      (quiet → u.cp.tx = [event 1 0 was.here 0#8 255#8])) ∧
    (∀ o n k, r.settle = 0 → r.last = false → was.operation = some o → was.step = some n → n.val + 1 = k.val →
      let entering := { was with rest := (u.hatch h).rest }
      let w := if (s.stepRec h o k).attended = false then .stopped
        else if r.attended then s.window h else .live s.image.global.holdWindow
      now.EntryBarred u h entering o k w ∧
      (alone → now.StepEntered u h entering o k w s.fa.queue (s.fa.units.filter fun y => y.hatch != h))) ∧
    (∀ o n k, r.settle = 0 → r.last = false → was.operation = some o → was.step = some n → n.val + 1 = k.val →
      let next := s.stepRec h o k
      let settled := u.setHolds h next.doneSet
      u.setHolds h next.tripSet = true → u.setHolds h next.startSet = true → u.setHolds h next.holdSet = true →
      u.boundLost h = false → u.boundFault h = false → s.ls.lapse = false →
      (next.attended = false ∨ r.attended = false ∨ s.window h ≠ .lapsed) →
      (s.fa.avail = 0 →
        becomes { was with step := some k, phase := some .flowWait, stepTimer := none, settleTimer := none } ∧
        (∃ y ∈ u.fa.queue, y.hatch = h) ∧ ∀ y ∈ u.fa.units, y.hatch ≠ h) ∧
      ((∀ j, j ≠ h → (s.hatch j).state = .idle ∨ (s.hatch j).state = .tripped ∨ (s.hatch j).state = .manual) →
        s.fa.queue = [] → s.hasRoom (s.fa.units.filter fun y => y.hatch != h) (s.requestOf h next) →
        (settled = false ∨ next.settle ≠ 0) →
        becomes { was with
                    step := some k, phase := if settled then some .settling else some .acting,
                    stepTimer := some (next.timeout * 100),
                    settleTimer := if settled then some next.settle else none } ∧
        u.fa.queue = [] ∧ ∃ y ∈ u.fa.units, y.hatch = h))) ∧
  (steady → running → goesOn → hold = true → was.phase = some .settling → done = false →
    becomes { was with phase := some .acting, settleTimer := none } ∧
    ∀ p ∈ s.stepBinary h r, s.soleChannel h p.1 → (∀ q ∈ s.stepBinary h r, q.1 = p.1 → q = p) →
      u.actValue p.1 = p.2) ∧
  (steady → held → goesOn →
    (start = false ∨ hold = false →
      becomes (if was.active.condition then was
        else
          { was with
              active := { was.active with condition := true },
              latched := { was.latched with
                condition := was.latched.condition || !(s.hatchRec h).resume.condition },
              history := { was.history with condition := true } })) ∧
    (start = true → hold = true →
      let active := { was.active with condition := false }
      (was.active.condition = false ∨ active ≠ {} ∨ was.latched ≠ {} →
        becomes { was with active := active }) ∧
      (was.active.condition = true → active = {} → was.latched = {} →
        (u.hatch h).lastResume = some (.auto, was.history) ∧
        ∀ o n, was.operation = some o → was.step = some n →
          let entering :=
            { was with
                active := {}, latched := {}, history := {}, lastResume := some (.auto, was.history),
                rest := (u.hatch h).rest }
          let w := if r.attended then s.window h else .stopped
          now.EntryBarred u h entering o n w ∧
          (alone → now.StepEntered u h entering o n w s.fa.queue s.fa.units)))) ∧
  (was.state = .stopping → goesOn → (∃ i, changed i) →
    (∀ a ∈ s.propActs h, ∀ k, k ≠ h → a ∉ (s.hatchRec k).actIds) →
    let stands := fun (a : ActId) => (s.drive a).c = 0 ∨ (s.drive a).state ≠ .atRest ∧
      ∃ f dir stop, (s.image.actuator.read a).kind = .proportional f ∧ (s.drive a).direction = some dir ∧
        (s.drive a).stopPosition = some stop ∧ ends f dir stop
    ((∃ a ∈ s.propActs h, ¬ stands a) → becomes was ∧ u.window h = s.window h) ∧
    ((∀ a ∈ s.propActs h, stands a) →
      (was.request = none ∨ s.motionEn = false ∨ s.ls.lapse = true →
        becomes { was with
                    state := .idle, operation := none, step := none, phase := none, request := none, owner := none,
                    active := {}, latched := {}, history := {}, stepTimer := none, settleTimer := none,
                    marker := was.here } ∧
        u.window h = .stopped ∧
        (quiet → steady →
          u.cp.tx = event 2 0 was.here 0#8 255#8 ::
            if was.request = none then []
            else [event 4 (if s.motionEn = false then 11 else 9) none 0#8 255#8])) ∧
      (∀ o c m n, was.request = some (o, c) → s.motionEn = true → s.ls.lapse = false → was.operation = some m →
        was.step = some n →
        let k := if m = o then (s.stepRec h m n).reentry.getD n else (s.stepRec h m n).reverse.getD 0
        let entering :=
          { was with
              owner := some c, request := none, marker := some (m, n), active := {}, latched := {}, history := {},
              rest := (u.hatch h).rest }
        let w := if (s.stepRec h o k).attended then .live s.image.global.holdWindow else .stopped
        now.EntryBarred u h entering o k w ∧
        (steady → alone → now.StepEntered u h entering o k w s.fa.queue s.fa.units) ∧
        (steady → quiet →
          ∃ state, event 3 0 (some (o, k)) state (byte (48 + c.val)) ∈ u.cp.tx ∧
            event 2 0 was.here 0#8 255#8 ∈ u.cp.tx)))) ∧
  (∀ a d f dir stop, (u.hatch h).state = .held ∨ (u.hatch h).state = .stopping → goesOn → s.drive a = d →
    d.state = .stopping → a ∈ s.propActs h → s.soleDrive h a →
    (∀ q ∈ s.fa.queue, ∀ y ∈ q.actions, y.1 ≠ a) → (∀ y ∈ s.fa.units, ∀ z ∈ y.inMotion, z.1 ≠ a) →
    (s.image.actuator.read a).kind = .proportional f → d.direction = some dir → d.stopPosition = some stop →
    (ends f dir stop → u.drive a = {}) ∧
    (¬ ends f dir stop → 0 < d.c → (u.hatch h).step = was.step → u.drive a = d)) ∧
  (steady → was.state = .running → goesOn → hold = true →
    was.phase = some .acting ∧ done = false ∨ was.phase = some .settling ∧ done = true →
    becomes was ∧ u.window h = s.window h ∧
    ∀ a d f dir speed stop, a ∈ (s.hatchRec h).actIds → s.drive a = d → d.state = .inMotion →
      (s.image.actuator.read a).kind = .proportional f →
      d.direction = some dir → d.speed = some speed → d.stopPosition = some stop →
      (∀ k, k ≠ h → a ∉ (s.hatchRec k).actIds) → (∀ q ∈ s.fa.queue, ∀ y ∈ q.actions, y.1 ≠ a) →
      let reformed : Prop := touched f.posRole ∨ ∃ i, s.image.global.heelSignal = some i ∧ changed i
      (ends f dir stop → u.drive a = {} ∧ ∀ y ∈ u.fa.units, ∀ z ∈ y.inMotion, z.1 ≠ a) ∧
      (¬ ends f dir stop → reformed →
        u.drive a =
          { d with
              target := targetOf f (s.image.actuator.read a).side dir speed stop (u.position h f) u.heel
                s.image.global.heelSoft,
              paused := (u.position h f).isNone, alloc := (u.drive a).alloc }) ∧
      (¬ ends f dir stop → ¬ reformed → u.drive a = { d with alloc := (u.drive a).alloc }))

/-- The fixed lengths of Table 8-12. -/
def recordLength : Nat → Nat
  | 1 => 20 | 2 => 4 | 3 => 42 | 4 => 6 | 5 => 8 | 6 => 7 | 7 => 23 | 8 => 36 | 9 => 35 | _ => 0

/-- The indexes of Table 8-12 that LOAD_RECORD accepts: CONDSET record 0 is not among them (R46). -/
def loadIndexOk (table index : Nat) : Prop :=
  match table with
  | 1 => index = 0
  | 2 => 1 ≤ index ∧ index ≤ 4
  | 3 => 1 ≤ index ∧ index ≤ 47
  | 4 => index ≤ 255
  | 5 => index ≤ 127
  | 6 => 1 ≤ index ∧ index ≤ 63
  | 7 => index ≤ 95
  | 8 => 1 ≤ index ∧ index ≤ 12
  | 9 => index ≤ 191
  | _ => False

end Sys2Proof.Machine
end

