-- ==== Sys2Proof/Certificates/Slice0/Obligations.lean ====
section
/-! DEFINITION. The statements about the HSB-412 model. -/

open Sys2Proof Sys2Proof.Machine

/-! ### The machine -/

/-- A step with a command waiting runs the command at the front on the state with the rest of the queue. The queue is
the model's own; R133 and R131 have each event taken alone. -/
def Obligations.StepRunsTheFrontCommand : Prop :=
  ∀ (c : Instr) (rest : List Instr) (s : State),
    step { s with pending := c :: rest } = exec c { s with pending := rest }

/-- A step on an empty queue is one millisecond (the model's choice, log entry 2): the age of a FRESH signal rises to
its max age at most (R19, R24), the running timers of every hatch fall, the time since a node's last reply rises to
65535 at most (Table 9-2), the running timers of the field line fall, and nothing else changes of the queues, the
field line, the straps, the reset in progress and all that a console can read. -/
def Obligations.EmptyQueueLetsOneMillisecondPass : Prop :=
  ∀ s : State, s.pending = [] →
    ∃ t, step s = .next t ∧
      (∀ i, t.signal i =
        { s.signal i with
            age := if (s.signal i).quality = .fresh then min ((s.signal i).age + 1) (s.image.signal.read i).maxAge
              else (s.signal i).age }) ∧
      (∀ h, t.hatch h =
        { s.hatch h with
            stepTimer := (s.hatch h).stepTimer.map (· - 1), settleTimer := (s.hatch h).settleTimer.map (· - 1) }) ∧
      (∀ n, t.node n = { s.node n with sinceReply := min ((s.node n).sinceReply + 1) 65535 }) ∧
      t.flc.outstanding = s.flc.outstanding.map (fun x => { x with left := x.left.map (· - 1) }) ∧
      (∀ n, t.flc.scan.read n = { s.flc.scan.read n with left := (s.flc.scan.read n).left.map (· - 1) }) ∧
      { t.flc with outstanding := s.flc.outstanding, scan := s.flc.scan, nodes := s.flc.nodes } = s.flc ∧
      t.mu.straps = s.mu.straps ∧ t.mu.resetPhase = s.mu.resetPhase ∧
      t.cp = s.cp ∧ t.fa = s.fa ∧ t.dru.drives = s.dru.drives ∧ t.oir.image = s.oir.image ∧ t.shadows = s.shadows ∧
      t.mu.flags = s.mu.flags ∧ t.mu.mode = s.mu.mode ∧ t.image = s.image ∧ t.mu.store = s.mu.store ∧
      t.sl.motionReleased = s.sl.motionReleased ∧ t.sl.estop = s.sl.estop ∧ t.ls.lapse = s.ls.lapse ∧ t.pending = []

/-- The state after reset meets every invariant stated below. -/
def Obligations.ResetMeetsEveryInvariant : Prop :=
  State.reset.QueuesBounded ∧ State.reset.MotionSafe ∧ State.reset.ForwardSafe ∧ State.reset.FlowMatched ∧
    State.reset.FlowFits ∧ State.reset.StepsNamed ∧ State.reset.RestFollows ∧ State.reset.TablesPass ∧
    State.reset.AllocationsFollow ∧ State.reset.AvailFollows

/-- Every step keeps the three frame queues at 8 frames at most (R132, R137, Table 9-1). -/
def Obligations.EveryStepKeepsTheQueuesBounded : Prop :=
  ∀ s t : State, s.QueuesBounded → step s = .next t → t.QueuesBounded

/-- Every step keeps motion safe: outside OPERATE nothing moves and motion is not released, and while MOTION_EN is
deasserted no hatch is RUNNING, HELD, STOPPING or MANUAL (R169, R173, R5). -/
def Obligations.EveryStepKeepsMotionSafe : Prop :=
  ∀ s t : State, s.MotionSafe → step s = .next t → t.MotionSafe

/-- Every step keeps the F forward queue free of frames that must not be sent: a console frame with a write to an OWNED
channel, or to a GUARDED channel whose hatch is not MANUAL with a live hold window, never waits there (R160). -/
def Obligations.EveryStepKeepsForwardedFramesAllowed : Prop :=
  ∀ s t : State, s.MotionSafe → s.ForwardSafe → step s = .next t → t.ForwardSafe

/-- Every step keeps the flow queue and the admission list matched with the sequencers (R96, R97), and every RUNNING, HELD
or STOPPING hatch with its operation and its step (R66). -/
def Obligations.EveryStepKeepsFlowMatched : Prop :=
  ∀ s t : State, s.MotionSafe → s.StepsNamed → s.FlowMatched → step s = .next t → t.FlowMatched ∧ t.StepsNamed

/-- Every step keeps the rest state of every hatch the one that Table 1-8 gives for its classification signals, in every
sequencer state (R15, R16); of a cleat role bound to a PROPORTIONAL actuator, by log entry 12; across a LOAD_RECORD of an
ACTUATOR record, whose group size the state follows, by log entry 23. -/
def Obligations.EveryStepKeepsTheRestStates : Prop :=
  ∀ s t : State, s.RestFollows → step s = .next t → t.RestFollows

/-- Every step keeps B plus the admitted minimum within A (R105, R106), and A the raw flow of the running pumps less
the reserve, 0 where the reserve is not exceeded (R34): whatever moves a pump's running signal or the reserve, a
reply, an age, a node loss, a LOAD_RECORD, a WRITE_ITEM or a reset, A follows at the event (R35). -/
def Obligations.EveryStepKeepsAdmittedFlowWithinA : Prop :=
  ∀ s t : State, step s = .next t → (s.FlowFits → t.FlowFits) ∧ (s.AvailFollows → t.AvailFollows)

/-- Every step leaves every action in motion with the allocation of R105, and B plus these allocations within A (R106),
together with what this rests on: the tables that hatches run under pass the validation (R176, R177, R179), the steps and
markers lie within their sequences, the requests are those of R95, and an action that is not paused has a target of at
least its minimum (R115). The actions of a request stand in the order of their slots by log entry 44. -/
def Obligations.EveryStepKeepsTheAllocations : Prop :=
  ∀ s t : State, s.MotionSafe → s.StepsNamed → s.FlowMatched → s.FlowFits → s.TablesPass → s.AllocationsFollow →
    step s = .next t → t.TablesPass ∧ t.AllocationsFollow ∧ t.AllocationsFit

/-- A sticky flag that a step clears was named by a CLEAR_FLAGS served outside STORING, or the step was a reset (R164). -/
def Obligations.StickyFlagsStayUntilClearedOrReset : Prop :=
  ∀ (s t : State) (f : Flag), step s = .next t → s.flag f = true → t.flag f = false →
    ∃ c rest, s.pending = c :: rest ∧
      ((c = .clearFlags ∧ s.mu.mode ≠ .storing ∧
          ∃ console tag mask, s.headMgmt = some (console, tag, .clearFlags mask) ∧ flagIn mask f = true) ∨
        (∃ straps, c = .powerUp straps ∨ c = .resetN straps ∨ c = .resetDeviceTaken straps ∧ s.mu.resetPhase = .due))

/-- MOTION_EN is asserted by one thing only: an ACKNOWLEDGE naming the device, served in OPERATE with ESTOP_IN RELEASED,
which leaves LINK_LAPSE clear (R169). -/
def Obligations.OnlyDeviceAcknowledgeReleasesMotion : Prop :=
  ∀ s t : State, step s = .next t → s.motionEn = false → t.motionEn = true →
    s.mu.mode = .operate ∧ s.sl.estop = .released ∧ t.ls.lapse = false ∧
      ∃ rest console tag hi lo, s.pending = .acknowledgeDevice :: rest ∧
        s.headMgmt = some (console, tag, .acknowledge 1 hi lo)

/-- A hatch leaves TRIPPED only through an ACKNOWLEDGE that names it with every trip cause cleared, or through a reset
(R86, R88). -/
def Obligations.TrippedIsLeftOnlyByAcknowledgeOrReset : Prop :=
  ∀ (s t : State) (h : Hatch), s.MotionSafe → step s = .next t → (s.hatch h).state = .tripped →
    (t.hatch h).state = .tripped ∨
    (∃ rest console tag hi lo l, s.pending = .acknowledgeHatches :: rest ∧
        s.headMgmt = some (console, tag, .acknowledge 0 hi lo) ∧ parseMask hi lo = some l ∧ h ∈ l ∧
        s.mu.mode ≠ .storing ∧ s.enabled h = true ∧ s.tripsCleared h = true ∧ (t.hatch h).state = .idle) ∨
    (∃ straps rest, (s.pending = .powerUp straps :: rest ∨ s.pending = .resetN straps :: rest ∨
        s.pending = .resetDeviceTaken straps :: rest ∧ s.mu.resetPhase = .due) ∧ (t.hatch h).state = .idle)

/-- No record changes under any block but at a LOAD_RECORD, at a WRITE_ITEM, which changes the GLOBAL record alone, and
at a reset: the changes of mode change no record followed (R172, R173, R177, R178). The stored image and its reference
CRC change only when a LEAVE_CONFIG is accepted and at the completion of STORING (R171, R178). -/
def Obligations.TablesAndStoreChangeOnlyWhereStated : Prop :=
  ∀ s t : State, step s = .next t →
    (t.image ≠ s.image →
      ∃ c rest, s.pending = c :: rest ∧
        (c = .loadRecord ∨ (c = .writeItem ∧ t.image = { s.image with global := t.image.global }) ∨
          ∃ straps, c = .powerUp straps ∨ c = .resetN straps ∨ c = .resetDeviceTaken straps)) ∧
    (t.mu.store ≠ s.mu.store →
      (∃ rest, s.pending = .leaveConfig :: rest ∧ s.mu.mode = .config ∧ t.mu.mode = .storing ∧
        t.mu.store = { s.mu.store with crc := none }) ∨
      ∃ c rest, s.pending = c :: rest ∧ s.mu.mode = .storing ∧ t.mu.mode = .operate ∧
        ((∃ done, c = .storeComplete done) ∨ c = .storeWriteTimeout))

/-! ### Frames and records in bytes -/

/-- A frame of at most 48 payload bytes, encoded by Table 8-3, is received as that frame with its header intact; the
same bytes with a framing error, or with other CRC bytes, fail their CRC; cut short or carried on, they fail their
length; and a lead byte whose nibbles are not complementary is bad (R127, R128). A run whose lead byte is
complementary and names none of the ten kinds gives BAD_KIND, whatever follows; one that names a kind and whose length
byte is above 48 gives BAD_LENGTH, whatever its count of bytes and its CRC. A run cut below its length byte fails its
length by log entry 31. -/
def Obligations.EncodedFrameIsReceivedAsItself : Prop :=
  ∀ f : Frame, f.payload.length ≤ 48 →
    checkRun { bytes := f.encode, framingError := false } = .valid f ∧
    checkRun { bytes := f.encode, framingError := true } = .invalid .badCrc ∧
    headerOf f.encode = some { kind := f.kind, dest := f.dest, src := f.src, tag := f.tag } ∧
    f.encode.length = 8 + f.payload.length ∧
    (∀ crc, crc.length = 2 → crc ≠ f.encode.drop (6 + f.payload.length) →
      checkRun { bytes := f.encode.take (6 + f.payload.length) ++ crc, framingError := false } = .invalid .badCrc) ∧
    (∀ more framing, more ≠ [] →
      checkRun { bytes := f.encode ++ more, framingError := framing } = .invalid .badLength) ∧
    (∀ k framing, 1 ≤ k → k < f.encode.length →
      checkRun { bytes := f.encode.take k, framingError := framing } = .invalid .badLength) ∧
    (∀ lead : Byte, lead.extractLsb' 4 4 ≠ ~~~ (lead.extractLsb' 0 4) →
      checkRun { bytes := lead :: f.encode.tail, framingError := false } = .invalid .badLead) ∧
    (∀ (lead : Byte) (rest : List Byte) (framing : Bool), lead.extractLsb' 4 4 = ~~~ (lead.extractLsb' 0 4) →
      ((lead.extractLsb' 4 4).toNat = 0 ∨ 10 < (lead.extractLsb' 4 4).toNat →
        checkRun { bytes := lead :: rest, framingError := framing } = .invalid .badKind) ∧
      (1 ≤ (lead.extractLsb' 4 4).toNat → (lead.extractLsb' 4 4).toNat ≤ 10 →
        ∀ n : Byte, rest[4]? = some n → 48 < n.toNat →
          checkRun { bytes := lead :: rest, framingError := framing } = .invalid .badLength))

/-- A record that LOAD_RECORD accepts has the length of its table and an index of it, and the encoding of the record
placed decodes to the same record (R140, R174). -/
def Obligations.LoadedRecordReadsBackAsItself : Prop :=
  ∀ (im : TableImage) (table index : Nat) (bytes : List Byte) (r : TableRecord),
    decodeRecord table index bytes = some r →
    loadIndexOk table index ∧ bytes.length = recordLength table ∧
      ∃ enc, (im.load r).recordBytes table index = some enc ∧ enc.length = recordLength table ∧
        decodeRecord table index enc = some r

/-! ### Resets -/

/-- The three resets leave the Field Line Controller and the output image with the values of Table 9-1 (R141); the reset
of an accepted RESET_DEVICE while it is due. -/
def Obligations.EveryResetSetsTheFieldLineAndTheOutputs : Prop :=
  ∀ (s : State) (straps : Fin 4) (c : Instr),
    (c = .powerUp straps ∨ c = .resetN straps ∨ c = .resetDeviceTaken straps ∧ s.mu.resetPhase = .due) →
    ∃ t, exec c s = .next t ∧
      t.flc.outstanding = none ∧ t.flc.forward = [] ∧ t.flc.neutralPending = false ∧
      (∀ n, t.flc.scan.read n = { due := (t.image.node.read n).inMap && (t.image.node.read n).poll, left := none }) ∧
      t.flc.position = 0 ∧ t.flc.turn = .forwardedWork ∧ t.flc.tagCounter = 0 ∧
      (∀ n, t.node n =
        { state := if (t.image.node.read n).inMap then .unknown else .absent, misses := 0, alertRun := 0,
          saturated := false, alertPending := false, faultWord := 0, sinceReply := 65535 }) ∧
      t.flag .fFrameErr = false ∧ t.flag .nodeLost = false ∧ t.flag .alertSat = false ∧
      (∀ n ch, t.outChan n ch = { value := t.image.neutralOf n ch, dirty := false }) ∧
      (∀ n, t.oir.refreshLeft.read n = t.image.global.outputRefresh)

/-- The three resets act alike on every other block: start-up chooses the mode by the stored image and its reference CRC
(R179), and the rest takes its reset values under that image (R37, R66, R94, R113, R139, R158, R164 to R167, R169). The
level of ESTOP_IN, the store and the waiting commands stay. The record that no configuration has reached OPERATE since a
start-up without tables is the model's own (log entry 41). -/
def Obligations.EveryResetSetsTheOtherBlocks : Prop :=
  ∀ (s : State) (straps : Fin 4) (c : Instr),
    (c = .powerUp straps ∨ c = .resetN straps ∨ c = .resetDeviceTaken straps ∧ s.mu.resetPhase = .due) →
    ∃ t, exec c s = .next t ∧
      (if s.mu.store.crc = some s.mu.store.image.crc then
        t.mu.mode = .operate ∧ t.mu.active = s.mu.store.image ∧ t.mu.tableless = false ∧
          (∀ f, t.flag f = true ↔ f = .resetOccurred)
      else
        t.mu.mode = .noTables ∧ t.mu.active = .empty ∧ t.mu.tableless = true ∧
          (∀ f, t.flag f = true ↔ f = .resetOccurred ∨ f = .tableCrc)) ∧
      t.mu.straps = straps ∧ t.mu.cRate = t.image.global.cRate ∧ t.mu.fRate = t.image.global.fRate ∧
      t.mu.store = s.mu.store ∧ t.mu.resetPhase = .inactive ∧
      t.cp.rx = [] ∧ t.cp.tx = [] ∧ t.cp.sending = none ∧
      t.sl = { pinActive := s.sl.pinActive, estop := .released, run := if s.sl.pinActive then some 5 else none,
               motionReleased := false } ∧
      t.ls.lapse = false ∧ t.ls.link = linkTimer t.image.global ∧ (∀ h, t.window h = .stopped) ∧
      (∀ i, t.signal i =
        { value := 0, quality := .stale, age := (t.image.signal.read i).maxAge, candidate := none, run := 0 }) ∧
      (∀ h, t.hatch h =
        { state := .idle, operation := none, step := none, phase := none, active := {}, latched := {}, history := {},
          trips := {}, firstTrip := none, request := none, marker := none, owner := none, lastResume := none,
          rest := .unknown, stepTimer := none, settleTimer := none }) ∧
      t.fa.avail = 0 ∧ t.fa.queue = [] ∧ t.fa.units = [] ∧
      (∀ a, t.drive a =
        { state := .atRest, direction := none, speed := none, stopPosition := none, target := 0, paused := false,
          alloc := 0, c := 0, code := 2048, saturated := false }) ∧
      t.dru.tickLeft = t.image.global.rampTick ∧
      (∀ n ch, t.shadow n ch = t.image.neutralOf n ch) ∧
      t.pending = s.pending
/-! ### The Console Port -/

/-- A run of bytes that is not an urgent frame joins the C receive queue, with its error mark when it is invalid, or is
discarded at a full queue with C_OVERRUN, and with C_FRAME_ERR too when it is invalid; nothing else changes (R132). -/
def Obligations.ArrivalJoinsTheReceiveQueue : Prop :=
  ∀ (run : Run) (s : State), run.bytes ≠ [] → s.urgentOf run = none →
    ∃ t, exec (.cFrameArrives run) s = .next t ∧
      (s.cp.rx.length < 8 →
        (∀ f, checkRun run = .valid f → t = { s with cp := { s.cp with rx := s.cp.rx ++ [.valid f] } }) ∧
        (∀ r, checkRun run = .invalid r →
          t = { s with cp := { s.cp with rx := s.cp.rx ++ [.invalid (run.bytes.take 56) r] } })) ∧
      (8 ≤ s.cp.rx.length →
        (∀ f, checkRun run = .valid f →
          t = { s with mu := { s.mu with flags := s.mu.flags ||| Flag.cOverrun.mask } }) ∧
        (∀ r, checkRun run = .invalid r →
          t = { s with mu := { s.mu with flags := s.mu.flags ||| Flag.cOverrun.mask ||| Flag.cFrameErr.mask } }))

/-- A run is an urgent STOP, HOLD or KEEP when it is a valid frame of that kind to the part's own address from a console
with a payload of its form (R131, Table 8-5). A KEEP restarts the link window timer, whatever the queues hold and whether
LINK_LAPSE is set or clear, and changes nothing else (R166); a link window of 0 leaves it stopped. -/
def Obligations.UrgentFramesAndKeep : Prop :=
  ∀ (run : Run) (s : State),
    (∀ u, s.urgentOf run = some u ↔
      ∃ f c, checkRun run = .valid f ∧ f.destAddr = addrOf s.ownAddr ∧ consoleAt f.srcAddr = some c ∧
        ((f.kind = .stop ∧ ∃ l, parseStop f.payload = some l ∧ u = .stop l) ∨
          (f.kind = .hold ∧ ∃ l, parseHold f.payload = some l ∧ u = .hold c l) ∨
          (f.kind = .keep ∧ f.payload = [] ∧ u = .keep))) ∧
    (s.urgentOf run = some .keep →
      exec (.keep run) s = .next
        { s with
            ls := { s.ls with
              link := if s.image.global.linkWindow = 0 then none else some s.image.global.linkWindow } })

/-- An urgent STOP (R69): each named enabled hatch that is RUNNING or HELD leaves both, its pending slot empty and its
window stopped: TRIPPED where its trip set fails, else its binary channels are 0 and its drives in motion ramp down or
stand (R82, R120; the paused mark of a drive at rest by log entry 45), the hatch STOPPING while a drive of it has a
commanded flow, or IDLE at once (R83); a STOPPING one has its slot emptied and goes on; a MANUAL one keeps its record
with its window stopped, its shadows neutral, its GUARDED channels neutral and dirty as R159 gives (one held neutral
already is not written, R146), and none of its writes queued, a BLOCKED notice with reason HOLD_LAPSED for the one
frame removed (Table 10-3); any other hatch that does not wait for flow is not changed, nor are the receive queue, the
mode, the tables, the sensor image, the Stop Logic and LINK_LAPSE. -/
def Obligations.StopActsOnEachNamedHatch : Prop :=
  ∀ (run : Run) (s : State) (l : List Hatch), s.urgentOf run = some (.stop l) →
    ∃ t, exec (.stop run) s = .next t ∧ t.cp.rx = s.cp.rx ∧ t.still = s.still ∧
      (∀ h, h ∉ l ∨ s.enabled h = false → (s.hatch h).waiting = false →
        t.hatch h = s.hatch h ∧ t.window h = s.window h) ∧
      ∀ h ∈ l, s.enabled h = true →
        (match (s.hatch h).state with
        | .running | .held =>
          (∀ r, s.currentStep h = some r →
            (s.setHolds h r.tripSet = false → (t.hatch h).state = .tripped) ∧
            (s.setHolds h r.tripSet = true →
              s.OutputsWithdrawn t h r ∧
              ((∀ a ∈ s.propActs h, (s.drive a).c = 0) → (t.hatch h).state = .idle) ∧
              ((∃ a ∈ s.propActs h, s.soleDrive h a ∧ (s.drive a).c ≠ 0) → (t.hatch h).state = .stopping))) ∧
          (t.hatch h).request = none ∧ (t.hatch h).phase = none ∧ t.window h = .stopped ∧
          (t.hatch h).active = {} ∧ (t.hatch h).latched = {} ∧ (t.hatch h).history = {} ∧
          (t.hatch h).stepTimer = none ∧ (t.hatch h).settleTimer = none ∧
          (((t.hatch h).state = .stopping ∧ (t.hatch h).operation = (s.hatch h).operation ∧
              (t.hatch h).step = (s.hatch h).step ∧ (t.hatch h).owner = (s.hatch h).owner) ∨
            ((t.hatch h).state = .idle ∧ (t.hatch h).operation = none ∧ (t.hatch h).step = none ∧
              (t.hatch h).owner = none ∧ (t.hatch h).marker = (s.hatch h).here) ∨
            ((t.hatch h).state = .tripped ∧ (t.hatch h).marker = (s.hatch h).here ∧
              (t.hatch h).owner = (s.hatch h).owner ∧ (t.hatch h).firstTrip = some .tripCondition))
        | .stopping => t.hatch h = { s.hatch h with request := none }
        | .manual =>
          t.hatch h = s.hatch h ∧ t.window h = .stopped ∧ s.Neutralised t h ∧
          (l = [h] → s.cp.tx = [] → ∀ x, s.BlockedNotice h 4#8 x → t.cp.tx = [x])
        | .idle | .tripped => t.hatch h = s.hatch h)

/-- An urgent HOLD (R165): a named enabled hatch that the source owns has its window started afresh when it is MANUAL,
or RUNNING (in FLOW_WAIT too) or HELD on an attended step, where the HOLD ends HOLD_LAPSE; a HELD hatch that another
cause still holds stays HELD, and one that none holds resumes by AUTO and enters its step again by R71, with every
outcome of its table where no other named hatch is HELD. A hatch not named, not enabled or not owned by the source is
not changed. -/
def Obligations.HoldFromTheOwnerRestartsTheWindow : Prop :=
  ∀ (run : Run) (s : State) (c : Console) (l : List Hatch), s.urgentOf run = some (.hold c l) →
    ∃ t, exec (.hold run) s = .next t ∧ t.cp.rx = s.cp.rx ∧ t.still = s.still ∧
      (∀ h, h ∉ l ∨ s.enabled h = false ∨ (s.hatch h).owner ≠ some c ∨
          ((s.hatch h).state ≠ .manual ∧ s.onAttended h = false) → (s.hatch h).waiting = false →
        t.hatch h = s.hatch h ∧ t.window h = s.window h) ∧
      ∀ h ∈ l, s.enabled h = true → (s.hatch h).owner = some c →
        ((s.hatch h).state = .manual ∨
            (s.hatch h).state = .running ∧ s.onAttended h = true ∧ (s.hatch h).waiting = false →
          t.hatch h = s.hatch h ∧ t.window h = .live s.image.global.holdWindow) ∧
        ((s.hatch h).state = .running → s.onAttended h = true →
            (∀ k ∈ l, k ≠ h → (s.hatch k).state ≠ .held) →
          t.hatch h = s.hatch h ∧ t.window h = .live s.image.global.holdWindow) ∧
        ((s.hatch h).state = .held → s.onAttended h = true →
          let active := { (s.hatch h).active with holdLapse := false }
          ((s.hatch h).active.holdLapse = false ∨ active ≠ {} ∨ (s.hatch h).latched ≠ {} →
            t.hatch h = { s.hatch h with active := active } ∧ t.window h = .live s.image.global.holdWindow) ∧
          ((s.hatch h).active.holdLapse = true → active = {} → (s.hatch h).latched = {} →
            (t.hatch h).lastResume = some (.auto, (s.hatch h).history) ∧
            ∀ o n, (s.hatch h).operation = some o → (s.hatch h).step = some n →
              let entering :=
                { s.hatch h with
                    active := {}, latched := {}, history := {}, lastResume := some (.auto, (s.hatch h).history) }
              let w := Window.live s.image.global.holdWindow
              s.EntryBarred t h entering o n w ∧
              ((∀ k ∈ l, k ≠ h → (s.hatch k).state ≠ .held) →
                s.StepEntered t h entering o n w s.fa.queue s.fa.units)))

/-- The checks of Table 8-2 in order (R134), and the wait of a FIELD_REQ for room in the F forward queue (R133). A head
that the checks refuse is discarded with one REJECT notice (R138, R128): to the frame's source with its tag when the
header is intact and the source a console, to all consoles otherwise, with tag 255 when the header is not intact; an
error-marked one sets C_FRAME_ERR. The notice is offered by R137. -/
def Obligations.QueueHeadIsServedOrRejected : Prop :=
  (∀ (s : State) (e : RxEntry) (rest : List RxEntry), s.cp.rx = e :: rest → s.mu.resetPhase = .inactive →
     (∀ b r, e = .invalid b r → s.headService = some (.reject e r)) ∧
     ∀ f, e = .valid f →
       (consoleAt f.srcAddr = none → s.headService = some (.reject e .badSource)) ∧
       ∀ c, consoleAt f.srcAddr = some c →
         (f.destAddr = 60 + s.mu.straps.val →
           (f.kind = .mgmtReq →
             (∀ q, parseMgmt f.payload = some q → s.headService = some (.mgmt c f.tag q)) ∧
             (parseMgmt f.payload = none → s.headService = some (.reject e .badPayload))) ∧
           (f.kind = .operate →
             (∀ q l, parseOperate f.payload = some (q, l) → s.headService = some (.operate c f.tag q l)) ∧
             (parseOperate f.payload = none → s.headService = some (.reject e .badPayload))) ∧
           (f.kind = .stop ∧ parseStop f.payload = none ∨ f.kind = .hold ∧ parseHold f.payload = none ∨
               f.kind = .keep ∧ f.payload ≠ [] → s.headService = some (.reject e .badPayload)) ∧
           (f.kind ∈ [Kind.fieldReq, .fieldReply, .mgmtReply, .notice, .neutral] →
             s.headService = some (.reject e .kindMismatch))) ∧
         (∀ n, nodeAt f.destAddr = some n →
           (f.kind = .fieldReq →
             (parseFieldReq f.payload = none → s.headService = some (.reject e .badPayload)) ∧
             (∀ q, parseFieldReq f.payload = some q →
               ((s.image.node.read n).inMap = false → s.headService = some (.reject e .noNode)) ∧
               ((s.image.node.read n).inMap = true →
                 (s.flc.forward.length < 8 → s.headService = some (.field f c n q)) ∧
                 (8 ≤ s.flc.forward.length → s.headService = none)))) ∧
           (f.kind ≠ .fieldReq → s.headService = some (.reject e .kindMismatch))) ∧
         (f.destAddr ≠ 60 + s.mu.straps.val → nodeAt f.destAddr = none →
           s.headService = some (.reject e .badDestination))) ∧
  (∀ (s : State) (e : RxEntry) (reason : RejectReason), s.headService = some (.reject e reason) →
     ∃ (u : State) (x : TxEntry), exec .queueHeadReject s = .next (u.offer x) ∧
       (∀ f, e = .valid f →
         u = { s with cp := { s.cp with rx := s.cp.rx.tail } } ∧
         (∀ c, consoleAt f.srcAddr = some c →
           x = .own .notice c.addr f.tag [1#8, byte reason.code, byte f.kind.code] false) ∧
         (consoleAt f.srcAddr = none →
           x = .own .notice 0#8 f.tag [1#8, byte reason.code, byte f.kind.code] false)) ∧
       (∀ b r, e = .invalid b r →
         u = { s with
                 cp := { s.cp with rx := s.cp.rx.tail },
                 mu := { s.mu with flags := s.mu.flags ||| Flag.cFrameErr.mask } } ∧
         (∀ d, headerOf b = some d →
           (∀ c, consoleAt (addrOf d.src) = some c →
             x = .own .notice c.addr d.tag [1#8, byte reason.code, byte d.kind.code] false) ∧
           (consoleAt (addrOf d.src) = none →
             x = .own .notice 0#8 d.tag [1#8, byte reason.code, byte d.kind.code] false)) ∧
         (headerOf b = none → x = .own .notice 0#8 255#8 [1#8, byte reason.code, 0#8] false)))

/-- A frame offered to the C transmit queue joins its tail, or is discarded with C_TX_OVERRUN when it holds 8 (R137). The
transmitter begins the head frame with the status byte and the CRC built at that moment, at the rate in force (R130), and
the frame leaves the queue when its last byte has been sent; the reset of an accepted RESET_DEVICE is then due (R170). -/
def Obligations.FramesAreOfferedAndTransmittedInOrder : Prop :=
  ∀ (s : State) (x : TxEntry),
    s.offer x =
      (if s.cp.tx.length < 8 then { s with cp := { s.cp with tx := s.cp.tx ++ [x] } }
      else { s with mu := { s.mu with flags := s.mu.flags ||| Flag.cTxOverrun.mask } }) ∧
    (∀ l, s.cp.tx = x :: l →
      (s.cp.sending = none →
        exec .transmitStart s = .next
          { s with
              cp := { s.cp with
                sending := some
                  { bytes :=
                      match x with
                      | .own k d tag p _ =>
                        ({ kind := k, dest := d, src := byte (60 + s.mu.straps.val), tag := tag,
                           status := s.statusByte, payload := p } : Frame).encode
                      | .forwarded f => f.encode,
                    rate := s.mu.cRate } } }) ∧
      (∀ b, s.cp.sending = some b →
        exec .transmitEnd s = .next
          { s with
              cp := { s.cp with tx := l, sending := none },
              mu := { s.mu with
                resetPhase := match x with
                  | .own _ _ _ _ true => .due
                  | .own _ _ _ _ false | .forwarded _ => s.mu.resetPhase } }))

/-- The status byte of the frames the part originates (R93, R130, Table 8-3): bit 7 while some hatch is TRIPPED, 6 while
some hatch is HELD, 5 while some hatch is RUNNING, STOPPING or MANUAL, 4 while LINK_LAPSE is set, 3 in CONFIG and
STORING, 2 while any flag is set, 1 while MOTION_EN is asserted, 0 in STORING. A frame's bytes hold it as they are built
at the start of its transmission. -/
def Obligations.StatusByteReportsThePartAsItStands : Prop :=
  ∀ s : State,
    (s.statusByte.getLsbD 7 = true ↔ ∃ h, (s.hatch h).state = .tripped) ∧
    (s.statusByte.getLsbD 6 = true ↔ ∃ h, (s.hatch h).state = .held) ∧
    (s.statusByte.getLsbD 5 = true ↔
      ∃ h, (s.hatch h).state = .running ∨ (s.hatch h).state = .stopping ∨ (s.hatch h).state = .manual) ∧
    (s.statusByte.getLsbD 4 = true ↔ s.ls.lapse = true) ∧
    (s.statusByte.getLsbD 3 = true ↔ s.mu.mode = .config ∨ s.mu.mode = .storing) ∧
    (s.statusByte.getLsbD 2 = true ↔ s.mu.flags ≠ 0) ∧
    (s.statusByte.getLsbD 1 = true ↔ s.motionEn = true) ∧
    (s.statusByte.getLsbD 0 = true ↔ s.mu.mode = .storing) ∧
    ∀ k d tag p b, (s.txBytes (.own k d tag p b))[4]? = some s.statusByte
/-! ### Management requests -/

/-- READ_ITEM is answered DONE with the item as its owner holds it, or BAD_ARGUMENT with no data where Table 8-8 has no
such item or index, and READ_RECORD likewise with the table id, the index and the record followed; they change nothing
else, in every mode (R162, R174). The bytes of each item are those of Table 8-8, the timers rounded down, an actuator not
in use with its reset values. That READ_RECORD of GLOBAL in NO_TABLES reads back the fields WRITE_ITEM has written is the
model's reading (log entry 13); the bytes of an absent speed or stop position, and of a channel value that one byte cannot
hold, are left free (log entries 6 and 46); the last resume set of an absent resume is 0xFF by log entry 20; the saturated,
paused and saturation marks are the bytes 0 and 1 by log entry 27; the actions of a unit stand in the order of log entry
44. -/
def Obligations.ReadingsAnswerAndChangeNothing : Prop :=
  ∀ (s : State) (c : Console) (tag : Byte) (a i : Nat),
    (s.headMgmt = some (c, tag, .readItem a i) →
      exec .readItem s = .next (({ s with cp := { s.cp with rx := s.cp.rx.tail } } : State).offer
        (.own .mgmtReply c.addr tag
          (match s.item a i with
          | some data => 1#8 :: 1#8 :: data
          | none => [1#8, 5#8]) false))) ∧
    (s.headMgmt = some (c, tag, .readRecord a i) →
      exec .readRecord s = .next (({ s with cp := { s.cp with rx := s.cp.rx.tail } } : State).offer
        (.own .mgmtReply c.addr tag
          (match s.image.recordBytes a i with
          | some bytes => 7#8 :: 1#8 :: byte a :: (be16n i ++ bytes)
          | none => [7#8, 5#8]) false))) ∧
    ((s.item a i).isSome = true ↔
      (1 ≤ a ∧ a ≤ 3 ∧ i = 0) ∨ (a = 4 ∧ 1 ≤ i ∧ i ≤ 12) ∨ (a = 5 ∧ 1 ≤ i ∧ i ≤ 47) ∨ (a = 6 ∧ i ≤ 95) ∨
        (a = 7 ∧ (i ≤ 12 ∨ 257 ≤ i ∧ i ≤ 268)) ∨ (a = 8 ∧ i ≤ 255)) ∧
    ((s.image.recordBytes a i).isSome = true ↔ loadIndexOk a i ∨ (a = 6 ∧ i = 0)) ∧
    s.item 1 0 = some [1#8, 0x9C#8, 1#8, byte (60 + s.mu.straps.val)] ∧
    s.item 2 0 = some [byte s.mu.mode.code] ∧
    s.item 3 0 = some [s.mu.flags.extractLsb' 8 8, s.mu.flags.extractLsb' 0 8] ∧
    (s.fa.queue.length < i → i ≤ 12 → s.item 7 i = some []) ∧
    (256 + s.fa.units.length < i → i ≤ 268 → s.item 7 i = some []) ∧
    s.image.recordBytes 6 0 = some [0#8, 0#8, 0#8, 0#8, 0#8, 0#8, 0#8] ∧
    (let one := fun (x : Option Nat) => byte (x.getD 255)
     let two := be16n
     let bit := fun (k : Nat) (b : Bool) => if b then 2 ^ k else 0
     let mark := fun (b : Bool) => byte (bit 0 b)
     let holds := fun (x : HoldSet) => byte
       (bit 0 x.condition + bit 1 x.holdLapse + bit 2 x.pause + bit 3 x.linkLapse + bit 4 x.nodeFault)
     let trips := fun (x : TripSet) => byte
       (bit 0 x.tripCondition + bit 1 x.stepTimeout + bit 2 x.readback + bit 3 x.nodeLost + bit 4 x.localEstop +
         bit 5 x.estopInput + bit 6 x.linkLost)
     let drive := fun (d : Drive) (speed stop : Word16) =>
       byte d.state.code :: one (d.direction.map (·.code)) :: (be16 speed ++ be16 stop ++ two d.target ++
         mark d.paused :: (two d.alloc ++ two d.c ++ two d.code ++ [mark d.saturated]))
     (∀ h : Hatch, let r := s.hatch h
       s.item 4 (h.val + 1) = some
         ([byte r.state.code, one (r.operation.map (·.code)), one (r.step.map (·.val)), one (r.phase.map (·.code)),
           holds r.active, holds r.latched, holds r.history, trips r.trips, one (r.firstTrip.map (·.code)),
           one (r.request.map (·.1.code)), one (r.request.map fun q => 48 + q.2.val), one (r.marker.map (·.1.code)),
           one (r.marker.map (·.2.val)), one (r.owner.map fun c => 48 + c.val), one (r.lastResume.map (·.1.code)),
           (match r.lastResume with
             | some l => holds l.2
             | none => 0xFF#8),
           byte r.rest.code] ++ two (r.stepTimer.getD 0 / 100) ++ two (r.settleTimer.getD 0))) ∧
     (∀ n : Node, let r := s.node n
       s.item 5 (n.val + 1) = some
         ([byte r.state.code, byte r.misses, byte r.alertRun, mark r.saturated] ++ be16 r.faultWord ++
           two r.sinceReply)) ∧
     (∀ a : ActId,
       let used := ∃ h x, s.enabled h = true ∧ (s.hatchRec h).actuatorOf x = some a
       ((∃ f, (s.image.actuator.read a).kind = .binary f) →
         (¬ used → s.item 6 a.val = some [0#8]) ∧
         (used → ∃ b, s.item 6 a.val = some [b] ∧ (s.actValue a < 256 → b = byte (s.actValue a)))) ∧
       ((∃ f, (s.image.actuator.read a).kind = .proportional f) →
         (¬ used → ∃ speed stop, s.item 6 a.val = some (drive {} speed stop)) ∧
         (used → ∃ speed stop, s.item 6 a.val = some (drive (s.drive a) speed stop) ∧
           (∀ v, (s.drive a).speed = some v → speed = BitVec.ofNat 16 v) ∧
           ∀ v, (s.drive a).stopPosition = some v → stop = BitVec.ofNat 16 v))) ∧
     s.item 7 0 = some (two s.fa.avail ++ two s.rawFlow ++ two s.image.global.reserve ++ two s.fa.demand ++
       two s.fa.minimum ++ two s.unallocated ++ [byte s.fa.queue.length, byte s.fa.units.length]) ∧
     (∀ (k : Nat) (q : FlowRequest), s.fa.queue[k]? = some q → k < 12 →
       s.item 7 (k + 1) = some
         ([byte q.hatch.number, one ((s.hatch q.hatch).operation.map (·.code)), one ((s.hatch q.hatch).step.map (·.val))] ++
           two q.dStep ++ two (q.actions.map (·.2)).sum)) ∧
     (∀ (k : Nat) (h : Hatch) (v : Nat), s.fa.units[k]? = some (.manual h v) → k < 12 →
       s.item 7 (257 + k) = some ([byte h.number, 1#8, 0xFF#8, 0xFF#8] ++ two v ++ [0#8])) ∧
     (∀ (k : Nat) (q : FlowRequest) (l : List (ActId × Nat)), s.fa.units[k]? = some (.step q l) → k < 12 →
       s.item 7 (257 + k) = some
         ([byte q.hatch.number, 0#8, one ((s.hatch q.hatch).operation.map (·.code)),
             one ((s.hatch q.hatch).step.map (·.val))] ++ two q.dStep ++ [byte l.length] ++
           l.flatMap fun z => byte z.1.val ::
             (two z.2 ++ two (s.drive z.1).target ++ two (s.drive z.1).alloc ++ [mark (s.drive z.1).paused]))) ∧
     ∀ i : SignalId, let x := s.signal i
       s.item 8 i.val = some
         (be16 (BitVec.ofInt 16 x.value) ++ [byte x.quality.code] ++ two x.age ++
           [one (x.candidate.map fun b => bit 0 b), byte x.run]))

/-- WRITE_ITEM (R163, R177): refused busy in STORING; BAD_ARGUMENT for a field number or a value outside Table 12-2;
in OPERATE and NO_TABLES, REFUSED_STATE for a field other than the reserve, the readback tolerance and heel_soft, and
DONE for those, which take effect at once: the reserve in A, the tolerance at the next reply, heel_soft in the targets
of the actions in motion (R117). In CONFIG each of the thirteen fields is placed in the working record, no other of
them changed, and the answer is DONE; but for the reserve, heel_soft and the heel signal, nothing else changes. That a
field which only CONFIG may write, with a value out of range, is answered BAD_ARGUMENT outside CONFIG too is the
model's choice (log entry 53). That field 8 takes the values 0 and 1 only is the model's reading (log entry 27). -/
def Obligations.WriteItemPlacesOneGlobalField : Prop :=
  ∀ (s : State) (c : Console) (tag : Byte) (field v : Nat), s.headMgmt = some (c, tag, .writeItem field v) →
    let served : State := { s with cp := { s.cp with rx := s.cp.rx.tail } }
    let reply := fun (code : Byte) => TxEntry.own .mgmtReply c.addr tag [2#8, code] false
    (s.mu.mode = .storing → exec .writeItem s = .next (served.offer (reply 2#8))) ∧
    (s.mu.mode ≠ .storing → ¬ globalFieldOk field v → exec .writeItem s = .next (served.offer (reply 5#8))) ∧
    (s.mu.mode = .operate ∨ s.mu.mode = .noTables → globalFieldOk field v →
      (field ≠ 1 ∧ field ≠ 9 ∧ field ≠ 10 → exec .writeItem s = .next (served.offer (reply 3#8))) ∧
      (field = 9 → exec .writeItem s = .next
        (({ served with
            mu := { s.mu with
              active := { s.mu.active with
                global := { s.mu.active.global with readbackTolerance := v } } } } : State).offer (reply 1#8))) ∧
      (field = 1 → ∃ u : State, exec .writeItem s = .next (u.offer (reply 1#8)) ∧
        u.mu.active = { s.mu.active with global := { s.mu.active.global with reserve := v } } ∧
        u.fa.avail = s.rawFlow - v) ∧
      (field = 10 → ∃ u : State, exec .writeItem s = .next (u.offer (reply 1#8)) ∧
        u.mu =
          { s.mu with active := { s.mu.active with global := { s.mu.active.global with heelSoft := v } } } ∧
        u.fa.avail = s.fa.avail ∧ u.dru.tickLeft = s.dru.tickLeft ∧
        { u with dru := s.dru, mu := s.mu } = served ∧
        ∀ a, let d := s.drive a
          (d.state ≠ .inMotion → u.drive a = { d with alloc := (u.drive a).alloc }) ∧
          ∀ h f dir speed stop, s.enabled h = true → a ∈ (s.hatchRec h).actIds →
            (∀ k, k ≠ h → a ∉ (s.hatchRec k).actIds) → (s.image.actuator.read a).kind = .proportional f →
            d.state = .inMotion → d.direction = some dir → d.speed = some speed → d.stopPosition = some stop →
            u.drive a =
              { d with
                  target := targetOf f (s.image.actuator.read a).side dir speed stop (s.position h f) s.heel v,
                  paused := (s.position h f).isNone, alloc := (u.drive a).alloc })) ∧
    (s.mu.mode = .config → globalFieldOk field v →
      ∃ u : State, exec .writeItem s = .next (u.offer (reply 1#8)) ∧
        u.mu.working = { s.mu.working with global := s.mu.working.global.placed field v } ∧
        u.mu.active = s.mu.active ∧ u.mu.store = s.mu.store ∧ u.mu.mode = .config ∧ u.sl = s.sl ∧
        u.signals = s.signals ∧ u.ls.lapse = s.ls.lapse ∧
        u.fa.avail = (if field = 1 then s.rawFlow - v else s.fa.avail) ∧
        (field ≠ 1 → field ≠ 10 → field ≠ 11 →
          u = { served with
                  mu := { s.mu with
                    working := { s.mu.working with global := s.mu.working.global.placed field v } } }))

/-- A value outside a field's range, or off its step, is refused with BAD_ARGUMENT at WRITE_ITEM and at LOAD_RECORD of
the GLOBAL record, and one in range and on the step is accepted; the defaults are those of Table 12-2, with which the
part starts in NO_TABLES, at both line rates of 115.2 kbit/s (R175). That BAD_ARGUMENT comes before REFUSED_STATE in
OPERATE and NO_TABLES is the model's choice (log entry 53). That the readback enable, on or off in Table 12-2, accepts
exactly 0 and 1 is the model's reading (log entry 27). -/
def Obligations.GlobalFieldsKeepTheirRanges : Prop :=
  (∀ (g : GlobalRec) (field v : Nat), (g.setField field v).isSome = true ↔ globalFieldOk field v) ∧
  (∀ (s : State) (field v : Nat), s.mu.mode ≠ .storing → ¬ globalFieldOk field v →
    (s.writeItemResult field v).1 = .badArgument) ∧
  (∀ (s : State) (r1 r0 rt hw1 hw0 lw1 lw0 rto sp1 sp0 or1 or0 re rb hs1 hs0 sg1 sg0 cr fr : Byte),
    s.mu.mode = .config →
    let bytes := [r1, r0, rt, hw1, hw0, lw1, lw0, rto, sp1, sp0, or1, or0, re, rb, hs1, hs0, sg1, sg0, cr, fr]
    let ok : Prop :=
      globalFieldOk 1 (num16 r1 r0) ∧ globalFieldOk 2 rt.toNat ∧ globalFieldOk 3 (num16 hw1 hw0) ∧
        globalFieldOk 4 (num16 lw1 lw0) ∧ globalFieldOk 5 rto.toNat ∧ globalFieldOk 6 (num16 sp1 sp0) ∧
        globalFieldOk 7 (num16 or1 or0) ∧ globalFieldOk 8 re.toNat ∧ globalFieldOk 9 rb.toNat ∧
        globalFieldOk 10 (num16 hs1 hs0) ∧ globalFieldOk 11 (num16 sg1 sg0) ∧ globalFieldOk 12 cr.toNat ∧
        globalFieldOk 13 fr.toNat
    (ok → s.loadResult 1 0 bytes = .done) ∧ (¬ ok → s.loadResult 1 0 bytes = .badArgument)) ∧
  TableImage.empty.global =
    { reserve := 40, rampTick := 20, holdWindow := 300, linkWindow := 2000, replyTimeout := 5, scanPeriod := 100,
      outputRefresh := 200, readbackEnable := true, readbackTolerance := 8, heelSoft := 300, heelSignal := none,
      cRate := .k115_2, fRate := .k115_2 } ∧
  ∀ (s : State) (straps : Fin 4), s.mu.store.crc ≠ some s.mu.store.image.crc →
    ∃ t, exec (.powerUp straps) s = .next t ∧ t.mu.mode = .noTables ∧ t.image.global = TableImage.empty.global ∧
      t.mu.cRate = .k115_2 ∧ t.mu.fRate = .k115_2

/-- CLEAR_FLAGS (R164, R152, R177): refused busy in STORING; else every flag named is cleared, and stays set only where
its condition of Table 11-2 holds, TABLE_CRC also until a configuration has reached OPERATE after a start-up without
tables (R179; that this adds to the condition of the table is the model's reading, log entry 41); ALERT_SAT named ends the
saturation of every saturated node; nothing else changes. -/
def Obligations.ClearFlagsClearsTheNamedFlags : Prop :=
  ∀ (s : State) (c : Console) (tag : Byte) (mask : Word16), s.headMgmt = some (c, tag, .clearFlags mask) →
    let served : State := { s with cp := { s.cp with rx := s.cp.rx.tail } }
    (s.mu.mode = .storing →
      exec .clearFlags s = .next (served.offer (.own .mgmtReply c.addr tag [3#8, 2#8] false))) ∧
    (s.mu.mode ≠ .storing →
      ∃ u : State, exec .clearFlags s = .next (u.offer (.own .mgmtReply c.addr tag [3#8, 1#8] false)) ∧
        (∀ f : Flag, u.flag f = true ↔
          if flagIn mask f = true then
            (f = .nodeLost ∧ ∃ n, (s.node n).state = .lost) ∨ (f = .estopActive ∧ s.sl.estop = .active) ∨
              (f = .tableCrc ∧ (s.mu.mode = .noTables ∨ s.mu.tableless = true))
          else s.flag f = true) ∧
        (∀ n, u.node n =
          if flagIn mask .alertSat = true ∧ (s.node n).saturated = true then
            { s.node n with saturated := false, alertRun := 0 }
          else s.node n) ∧
        { u with mu := { u.mu with flags := s.mu.flags }, flc := { u.flc with nodes := s.flc.nodes } } = served)

/-- ACKNOWLEDGE with a hatch mask (R88, R169, R177): one result for each named hatch in ascending number; a hatch whose
trip causes have all cleared goes to IDLE with its marker kept and its owner cleared, every other hatch stays as it was,
and nothing else changes. That a refusal of the whole is answered with the two bytes 4 and the result is the model's
reading of Table 8-7 (log entry 30). -/
def Obligations.AcknowledgeClearsTrippedHatches : Prop :=
  ∀ (s : State) (c : Console) (tag hi lo : Byte), s.headMgmt = some (c, tag, .acknowledge 0 hi lo) →
    let served : State := { s with cp := { s.cp with rx := s.cp.rx.tail } }
    (s.mu.mode = .storing →
      exec .acknowledgeHatches s = .next (served.offer (.own .mgmtReply c.addr tag [4#8, 2#8] false))) ∧
    (s.mu.mode ≠ .storing → parseMask hi lo = none →
      exec .acknowledgeHatches s = .next (served.offer (.own .mgmtReply c.addr tag [4#8, 5#8] false))) ∧
    (∀ l, s.mu.mode ≠ .storing → parseMask hi lo = some l →
      ∃ (u : State) (result : Hatch → Nat), exec .acknowledgeHatches s = .next (u.offer (.own .mgmtReply c.addr tag
          ([4#8, 0#8, byte l.length] ++ l.flatMap fun h => [byte h.number, byte (result h)]) false)) ∧
        { u with hatches := s.hatches } = served ∧
        ∀ h,
          let t := (s.hatch h).trips
          let cleared : Prop :=
            (t.tripCondition = true → ∀ r, s.markedStep h = some r → s.setHolds h r.tripSet = true) ∧
            (t.nodeLost = true → ∀ n, s.image.boundNode h n = true → (s.node n).state ≠ .lost) ∧
            (t.localEstop = true → ∃ x, s.roleSignal h .localEstop = some x ∧ x.quality = .fresh ∧ x.value = 0) ∧
            (t.estopInput = true → s.sl.estop = .released) ∧ (t.linkLost = true → s.ls.lapse = false)
          let accepted : Prop := s.enabled h = true ∧ (s.hatch h).state = .tripped ∧ cleared
          (s.enabled h = false → result h = 5) ∧
          (s.enabled h = true → (s.hatch h).state ≠ .tripped → result h = 3) ∧
          (accepted → result h = 1) ∧
          (s.enabled h = true → (s.hatch h).state = .tripped → ¬ cleared → result h = 4) ∧
          (accepted → h ∈ l →
            u.hatch h =
              { s.hatch h with
                  state := .idle, trips := {}, firstTrip := none, operation := none, step := none, owner := none }) ∧
          (¬ accepted ∨ h ∉ l → u.hatch h = s.hatch h))

/-- ACKNOWLEDGE naming the device (R169, R177): LINK_LAPSE is cleared and the link window starts afresh; motion is
released and the answer DONE in OPERATE with ESTOP_IN RELEASED, and the answer is REFUSED_CONDITION otherwise with
motion as it was. A HELD hatch that LINK_LAPSE alone still held resumes by AUTO and enters its step again by R71, with
every outcome of its table where no other hatch is so held; one that another cause holds, or that has a latched cause,
stays HELD. In STORING and for a scope above 1 nothing changes. -/
def Obligations.AcknowledgeDeviceReleasesMotion : Prop :=
  ∀ (s : State) (c : Console) (tag hi lo : Byte) (scope : Nat), 1 ≤ scope →
    s.headMgmt = some (c, tag, .acknowledge scope hi lo) →
    let served : State := { s with cp := { s.cp with rx := s.cp.rx.tail } }
    let reply := fun (code : Byte) => TxEntry.own .mgmtReply c.addr tag [4#8, code] false
    (s.mu.mode = .storing → exec .acknowledgeDevice s = .next (served.offer (reply 2#8))) ∧
    (s.mu.mode ≠ .storing → scope ≠ 1 → exec .acknowledgeDevice s = .next (served.offer (reply 5#8))) ∧
    (s.mu.mode ≠ .storing → scope = 1 →
      ∃ u : State, exec .acknowledgeDevice s =
          .next (u.offer (reply (if s.mu.mode = .operate ∧ s.sl.estop = .released then 1#8 else 4#8))) ∧
        u.ls.lapse = false ∧
        u.ls.link = (if s.image.global.linkWindow = 0 then none else some s.image.global.linkWindow) ∧
        u.sl = { s.sl with
                  motionReleased :=
                    s.sl.motionReleased || decide (s.mu.mode = .operate ∧ s.sl.estop = .released) } ∧
        u.mu.mode = s.mu.mode ∧ u.image = s.image ∧ u.signals = s.signals ∧
        ∀ h,
          (((s.hatch h).state ≠ .held ∨ s.enabled h = false ∨ (s.hatch h).active.linkLapse = false ∨
              s.ls.lapse = false) → (s.hatch h).waiting = false → u.hatch h = s.hatch h) ∧
          (s.ls.lapse = true → s.enabled h = true → (s.hatch h).state = .held →
            (s.hatch h).active.linkLapse = true →
            let active := { (s.hatch h).active with linkLapse := false }
            (active ≠ {} ∨ (s.hatch h).latched ≠ {} → u.hatch h = { s.hatch h with active := active }) ∧
            (active = {} → (s.hatch h).latched = {} → (s.currentStep h).isSome = true →
              (u.hatch h).lastResume = some (.auto, (s.hatch h).history) ∧
              ∀ o n, (s.hatch h).operation = some o → (s.hatch h).step = some n →
                let now : State := { s with ls := { s.ls with lapse := false } }
                let entering :=
                  { s.hatch h with
                      active := {}, latched := {}, history := {}, lastResume := some (.auto, (s.hatch h).history) }
                let w := if (s.stepRec h o n).attended then s.window h else .stopped
                now.EntryBarred u h entering o n w ∧
                ((∀ k, k ≠ h → s.enabled k = true → (s.hatch k).state = .held → (s.hatch k).active.linkLapse = false) →
                  now.StepEntered u h entering o n w s.fa.queue s.fa.units))))

/-! ### Configuration, the store and the reset by request -/

/-- ENTER_CONFIG by the device mode (R173): accepted in OPERATE with every enabled hatch IDLE and in NO_TABLES, where
the mode becomes CONFIG, the working tables a copy of the tables followed and motion is no longer released; refused
else with nothing changed. The validation names the record of the lowest index that fails at the first stage of Table
12-3 at which one fails, and none where none does. LEAVE_CONFIG (R176, R177, R178): refused outside CONFIG;
TABLE_INVALID with the record that the first failing check names, then CRC_MISMATCH, both with the mode and the tables
unchanged; else the working image becomes the active tables, the mode STORING, and the store write begins by
invalidating the reference CRC. -/
def Obligations.ConfigIsEnteredAndLeftByRequest : Prop :=
  (∀ (s : State) (c : Console) (tag : Byte), s.headMgmt = some (c, tag, .enterConfig) →
     let served : State := { s with cp := { s.cp with rx := s.cp.rx.tail } }
     let reply := fun (code : Byte) => TxEntry.own .mgmtReply c.addr tag [5#8, code] false
     (s.mu.mode = .noTables ∨
         s.mu.mode = .operate ∧ (∀ h, s.enabled h = true → (s.hatch h).state = .idle) →
       ∃ u : State, exec .enterConfig s = .next (u.offer (reply 1#8)) ∧
         u = { served with
                 mu := { s.mu with mode := .config, working := s.image },
                 sl := { s.sl with motionReleased := false } } ∧
         u.motionEn = false ∧ u.image = s.image) ∧
     (s.mu.mode = .operate → (∃ h, s.enabled h = true ∧ (s.hatch h).state ≠ .idle) →
       exec .enterConfig s = .next (served.offer (reply 2#8))) ∧
     (s.mu.mode = .config → exec .enterConfig s = .next (served.offer (reply 3#8))) ∧
     (s.mu.mode = .storing → exec .enterConfig s = .next (served.offer (reply 2#8)))) ∧
  (∀ (s : State) (c : Console) (tag : Byte) (crc : Word16), s.headMgmt = some (c, tag, .leaveConfig crc) →
     let served : State := { s with cp := { s.cp with rx := s.cp.rx.tail } }
     let reply := fun (l : List Byte) => TxEntry.own .mgmtReply c.addr tag (8#8 :: l) false
     (s.mu.mode = .operate ∨ s.mu.mode = .noTables → exec .leaveConfig s = .next (served.offer (reply [3#8]))) ∧
     (s.mu.mode = .storing → exec .leaveConfig s = .next (served.offer (reply [2#8]))) ∧
     (∀ x, s.mu.mode = .config → s.mu.working.validate = some x →
       exec .leaveConfig s = .next (served.offer (reply ([7#8, byte x.1] ++ be16n x.2)))) ∧
     (s.mu.mode = .config → s.mu.working.validate = none → s.mu.working.crc ≠ crc →
       exec .leaveConfig s = .next (served.offer (reply [6#8]))) ∧
     (s.mu.mode = .config → s.mu.working.validate = none → s.mu.working.crc = crc →
       ∃ u : State, exec .leaveConfig s = .next (u.offer (reply [1#8])) ∧
         u = { served with
                 mu := { s.mu with
                   active := s.mu.working, mode := .storing, storeLeft := some 400,
                   store := { s.mu.store with crc := none } } } ∧
         u.image = s.image)) ∧
  (∀ (im : TableImage),
     (∀ x, im.validate = some x ↔
       ∃ k, im.Fails k x ∧ (∀ j y, j < k → ¬ im.Fails j y) ∧ ∀ y, im.Fails k y → x.2 ≤ y.2) ∧
     (im.validate = none ↔ ∀ k x, ¬ im.Fails k x))

/-- LOAD_RECORD (R174): refused outside CONFIG, and BAD_ARGUMENT for a table, an index, a length or a field out of
range, with nothing changed; else the record replaces the working record of its table and index. The SIGNAL record's
signal is reset (R30), and a channel whose kind a NODE record changes becomes the neutral of its new kind, dirty, as
does its shadow (R146). A node that enters the scan with a NODE record is due with its timer not started, and one that
leaves it loses its due mark and its timer (R145). The blocks act on the change: A follows a PUMP or GLOBAL record
(R34); a hatch loaded as not enabled takes the reset values (R5, R66; its marker and last resume cause too by log
entry 23); and the frames queued to the node of a NODE record are judged again, removed with NOREPLY where the node
has left the map and with BLOCKED where a pair is to a channel that is not FREE, in CONFIG OWNED or else MODE, and
left in place where they pass (R161). The field values of a record that are in range are those that `decodeRecord`
takes, by log entries 27, 29 and 50 where R174 leaves one open. That a node keeps its time since the last reply at a
change of the map (log entry 19), and that a SIGNAL record equal to the one it replaces resets its signal too (log
entry 24), are the model's readings. -/
def Obligations.LoadRecordReplacesTheWorkingRecord : Prop :=
  ∀ (s : State) (c : Console) (tag : Byte) (table index : Nat) (bytes : List Byte),
    s.headMgmt = some (c, tag, .loadRecord table index bytes) →
    let served : State := { s with cp := { s.cp with rx := s.cp.rx.tail } }
    let reply := fun (code : Byte) => TxEntry.own .mgmtReply c.addr tag [6#8, code] false
    (s.mu.mode = .operate ∨ s.mu.mode = .noTables → exec .loadRecord s = .next (served.offer (reply 3#8))) ∧
    (s.mu.mode = .storing → exec .loadRecord s = .next (served.offer (reply 2#8))) ∧
    (s.mu.mode = .config → decodeRecord table index bytes = none →
      exec .loadRecord s = .next (served.offer (reply 5#8))) ∧
    (¬ loadIndexOk table index ∨ bytes.length ≠ recordLength table → decodeRecord table index bytes = none) ∧
    (∀ r, s.mu.mode = .config → decodeRecord table index bytes = some r →
      ∃ u : State, exec .loadRecord s = .next (u.offer (reply 1#8)) ∧
        u.mu.mode = .config ∧ u.mu.working = s.mu.working.load r ∧ u.mu.active = s.mu.active ∧
        u.mu.store = s.mu.store ∧ u.sl = s.sl ∧ u.ls.lapse = s.ls.lapse ∧
        (∀ i x, r = .signal i x →
          u.signal i = { value := 0, quality := .stale, age := x.maxAge, candidate := none, run := 0 } ∧
          ∀ j, j ≠ i → u.signal j = s.signal j) ∧
        (∀ n x ch, r = .node n x → (x.chans.read ch).kind ≠ (s.image.chan n ch).kind →
          u.outChan n ch = { value := (x.chans.read ch).kind.neutral, dirty := true } ∧
          u.shadow n ch = (x.chans.read ch).kind.neutral) ∧
        (∀ n x ch, r = .node n x → (x.chans.read ch).kind = (s.image.chan n ch).kind →
          u.outChan n ch = s.outChan n ch) ∧
        ((∃ i x, r = .pump i x) ∨ (∃ x, r = .global x) → u.fa.avail = u.rawFlow - u.image.global.reserve) ∧
        (∀ h x, r = .hatch h x → x.enabled = false →
          u.hatch h =
            { state := .idle, operation := none, step := none, phase := none, active := {}, latched := {}, history := {},
              trips := {}, firstTrip := none, request := none, marker := none, owner := none, lastResume := none,
              rest := .unknown, stepTimer := none, settleTimer := none }) ∧
        (∀ n x, r = .node n x →
          let toNode := fun (f : Frame) => nodeAt f.destAddr = some n ∧ (consoleAt f.srcAddr).isSome = true
          let blocked := fun (f : Frame) => ∃ p ∈ framePairs f, (x.chans.read p.1).cls ≠ .free
          let goes := fun (f : Frame) => toNode f ∧ (x.inMap = false ∨ blocked f)
          (∀ f, f ∈ u.flc.forward ↔ f ∈ s.flc.forward ∧ ¬ goes f) ∧
          ((∀ f ∈ s.flc.forward, ¬ goes f) → u.flc.forward = s.flc.forward ∧ u.cp.tx = s.cp.tx) ∧
          (∀ f k, s.flc.forward = [f] → s.cp.tx = [] → goes f → consoleAt f.srcAddr = some k →
            (x.inMap = false → u.cp.tx = [.own .notice k.addr f.tag [2#8, n.addr] false]) ∧
            (x.inMap = true → ∀ before p after, framePairs f = before ++ p :: after →
              (∀ y ∈ before, (x.chans.read y.1).cls = .free) → (x.chans.read p.1).cls ≠ .free →
              u.cp.tx = [.own .notice k.addr f.tag
                [3#8, byte p.1.val, if (x.chans.read p.1).cls = .owned then 1#8 else 6#8] false]))) ∧
        (∀ n x, r = .node n x → let old := s.image.node.read n
          (∀ m, m ≠ n → u.flc.scan.read m = s.flc.scan.read m) ∧
          u.flc.scan.read n =
            if (x.inMap && x.poll) = (old.inMap && old.poll) then s.flc.scan.read n
            else { due := x.inMap && x.poll, left := none }) ∧
        (∀ n x, r = .node n x → x.inMap ≠ (s.image.node.read n).inMap →
          u.node n =
            { state := if x.inMap then .unknown else .absent, misses := 0, alertRun := 0, saturated := false,
              alertPending := false, faultWord := 0, sinceReply := (s.node n).sinceReply }) ∧
        (∀ n x, r = .node n x → x.inMap = (s.image.node.read n).inMap → u.node n = s.node n))

/-- RESET_DEVICE (R170, R177): refused busy in STORING, and while an enabled hatch is RUNNING, HELD, STOPPING or MANUAL;
else answered DONE, no further frame of the queue is served, and the reset is due once the reply has been sent, or at
once when the reply is discarded at a full queue. -/
def Obligations.ResetDeviceIsTakenAfterItsReply : Prop :=
  ∀ (s : State) (c : Console) (tag : Byte), s.headMgmt = some (c, tag, .resetDevice) →
    let served : State := { s with cp := { s.cp with rx := s.cp.rx.tail } }
    (s.mu.mode = .storing ∨
        (∃ h, s.enabled h = true ∧ (s.hatch h).state ≠ .idle ∧ (s.hatch h).state ≠ .tripped) →
      exec .resetDevice s = .next (served.offer (.own .mgmtReply c.addr tag [9#8, 2#8] false))) ∧
    (s.mu.mode ≠ .storing →
      (∀ h, s.enabled h = true → (s.hatch h).state = .idle ∨ (s.hatch h).state = .tripped) →
      ∃ t, exec .resetDevice s = .next t ∧ t.headService = none ∧
        (s.cp.tx.length < 8 →
          t = { served with
                  cp := { served.cp with tx := s.cp.tx ++ [.own .mgmtReply c.addr tag [9#8, 1#8] true] },
                  mu := { s.mu with resetPhase := .awaitingReply } }) ∧
        (8 ≤ s.cp.tx.length →
          t = { served with
                  mu := { s.mu with resetPhase := .due, flags := s.mu.flags ||| Flag.cTxOverrun.mask } }))

/-- The completion of STORING (R178): at the store's report, or 400 ms after the write began without success, the mode
becomes OPERATE with the new tables active whether or not the write succeeded; a failure sets STORE_FAULT and leaves the
reference CRC invalid; every marker is cleared, the link window starts afresh and the line rates are the new ones; nothing
else changes, and motion stays as it was. That a failed write leaves the old image in the store is the model's choice (log
entry 26): R178 says only that it does not match its reference CRC. The record that TABLE_CRC may end clear from then on
is the model's own (R179, log entry 41). -/
def Obligations.StoreCompletionReachesOperate : Prop :=
  ∀ (s : State) (c : Instr) (ok : Bool), s.mu.mode = .storing →
    (c = .storeComplete ok ∨ c = .storeWriteTimeout ∧ ok = false) →
    ∃ t, exec c s = .next t ∧
      t.mu =
        { s.mu with
            mode := .operate, storeLeft := none,
            store := if ok then { image := s.mu.active, crc := some s.mu.active.crc } else { s.mu.store with crc := none },
            cRate := s.mu.active.global.cRate, fRate := s.mu.active.global.fRate, tableless := false,
            flags := if ok then s.mu.flags else s.mu.flags ||| Flag.storeFault.mask } ∧
      (∀ h, t.hatch h = { s.hatch h with marker := none }) ∧
      t.ls = { s.ls with link := if s.mu.active.global.linkWindow = 0 then none else some s.mu.active.global.linkWindow } ∧
      t.image = s.image ∧
      { t with mu := s.mu, hatches := s.hatches, ls := s.ls } = s
/-! ### Operation requests -/

/-- The requests that leave every named hatch as it was (R67, R68, R79, R80, R89, R91, Table 5-3): each hatch is answered
by the first of the three tests of R67, and nothing but the answer happens. A MANUAL_ENTER or MANUAL_LEAVE that names
several hatches gives each of them BAD_HATCH: that one not enabled counts among those named (R67 against R5), and that
CONFIG and STORING do not answer first (R67 against R173 and R177), is the model's choice (log entry 42). A mask that
names no hatch gives a reply with no results. -/
def Obligations.RefusedRequestsChangeNoHatch : Prop :=
  ∀ (s : State) (c : Console) (tag : Byte) (q : OpReq) (l : List Hatch) (result : Hatch → OpResult),
    s.headOperate = some (c, tag, q, l) →
    let served : State := { s with cp := { s.cp with rx := s.cp.rx.tail } }
    let reply := fun (result : Hatch → OpResult) => TxEntry.own .mgmtReply c.addr tag
      ([0#8, byte q.code, byte l.length] ++ l.flatMap fun h => [byte h.number, byte (result h).code]) false
    ((q ≠ .manualEnter ∧ q ≠ .manualLeave ∨ l.length ≤ 1) →
      (∀ h ∈ l, s.unchangedResult q c h = some (result h)) →
      exec q.command s = .next (served.offer (reply result))) ∧
    ((q = .manualEnter ∨ q = .manualLeave) → 2 ≤ l.length →
      exec q.command s = .next (served.offer (reply fun _ => .badHatch)))

/-- An OPEN or CLOSE that finds its hatch IDLE with motion released and LINK_LAPSE clear is ACCEPTED (R68): the console
becomes owner and the starting step is chosen from the marker. Its entry (R71) trips the hatch with every trip cause
found, else holds it with every hold cause found, else puts it in FLOW_WAIT with its request at the tail of the queue
(R95, R96), its window running when the step is attended (R165). A request that finds the queue empty and fits is admitted
at the end of the event (R98, R99) and taken by R72: the phase is ACTING, or SETTLING where the done set holds (R73), the
step timer runs for the timeout in units of 100 ms, the unit stands at the tail of the admission list, each binary action
has its command value in the output image, neutral where the done set holds, and each drive is put in motion with its
commanded flow kept (R114), or stands where its end of travel holds (R118), every item of it at its reset value, the
paused mark by log entry 45. The actions of the request and of the unit stand in the order of their slots (log entry 44).
Where the done set holds and the settle time is 0 the step ends at once (R75): the operation is complete after the final
step (R76), else the next step is entered (R71) behind no other request. -/
def Obligations.AcceptedRequestEntersTheStartingStep : Prop :=
  ∀ (s : State) (c : Console) (tag : Byte) (q : OpReq) (o : Op) (h : Hatch), q.operation = some o →
    s.headOperate = some (c, tag, q, [h]) → s.enabled h = true → s.mu.mode = .operate →
    (s.hatch h).state = .idle → s.motionEn = true → s.ls.lapse = false →
    let served : State := { s with cp := { s.cp with rx := s.cp.rx.tail } }
    let n : StepNo := match (s.hatch h).marker with
      | none => 0
      | some (mo, mn) =>
        if mo = o then (s.stepRec h mo mn).reentry.getD mn else (s.stepRec h mo mn).reverse.getD 0
    let r := s.stepRec h o n
    let trips : TripSet :=
      { tripCondition := !s.setHolds h r.tripSet, nodeLost := s.boundLost h, localEstop := s.roleTrue h .localEstop }
    let holds : HoldSet :=
      { condition := !(s.setHolds h r.startSet && s.setHolds h r.holdSet), nodeFault := s.boundFault h }
    ∃ u : State, exec q.command s =
        .next (u.offer (.own .mgmtReply c.addr tag [0#8, byte q.code, 1#8, byte h.number, 1#8] false)) ∧
      u.still = served.still ∧
      (trips ≠ {} →
        (u.hatch h).state = .tripped ∧ (u.hatch h).trips = trips ∧ (u.hatch h).firstTrip = trips.first ∧
        (u.hatch h).marker = some (o, n) ∧ (u.hatch h).operation = some o ∧ (u.hatch h).step = some n ∧
        (u.hatch h).owner = some c ∧ u.window h = .stopped) ∧
      (trips = {} → holds ≠ {} →
        (u.hatch h).state = .held ∧ (u.hatch h).active = holds ∧ (u.hatch h).history = holds ∧
        (u.hatch h).latched = holds.diff { (s.hatchRec h).resume with pause := false } ∧
        (u.hatch h).operation = some o ∧ (u.hatch h).step = some n ∧ (u.hatch h).owner = some c ∧
        (u.hatch h).marker = (s.hatch h).marker ∧
        u.window h = if r.attended then .live s.image.global.holdWindow else .stopped) ∧
      (trips = {} → holds = {} → s.fa.queue ≠ [] →
        u.hatch h =
          { s.hatch h with
              state := .running, operation := some o, step := some n, phase := some .flowWait, owner := some c } ∧
        u.window h = (if r.attended then .live s.image.global.holdWindow else .stopped) ∧
        u.fa =
          { s.fa with
              queue := s.fa.queue ++
                [{ hatch := h, dStep := ((s.stepBinary h r).map fun p => s.image.demand p.1).sum,
                   actions := (s.stepDrives h r).map fun d => (d.act, s.image.minFlow d.act) }] } ∧
        u.dru = s.dru ∧ u.oir = s.oir ∧ ∀ k, k ≠ h → u.hatch k = s.hatch k ∧ u.window k = s.window k) ∧
      (trips = {} → holds = {} → s.fa.queue = [] → ¬ s.hasRoom s.fa.units (s.requestOf h r) →
        u.hatch h =
          { s.hatch h with
              state := .running, operation := some o, step := some n, phase := some .flowWait, owner := some c } ∧
        u.window h = (if r.attended then .live s.image.global.holdWindow else .stopped) ∧
        u.fa = { s.fa with queue := [s.requestOf h r] } ∧
        (∀ a, u.drive a = { s.drive a with alloc := (u.drive a).alloc }) ∧ u.oir = s.oir ∧
        ∀ k, k ≠ h → u.hatch k = s.hatch k ∧ u.window k = s.window k) ∧
      (trips = {} → holds = {} → s.fa.queue = [] → s.hasRoom s.fa.units (s.requestOf h r) →
        s.setHolds h r.doneSet = true → r.settle = 0 →
        (r.last = true →
          u.hatch h =
            { s.hatch h with
                state := .idle, operation := none, step := none, phase := none, owner := none, marker := none,
                request := none, stepTimer := none, settleTimer := none, active := {}, latched := {}, history := {} } ∧
          u.window h = .stopped ∧ u.fa.queue = []) ∧
        ∀ k, r.last = false → n.val + 1 = k.val →
          (∀ d ∈ s.stepDrives h r, ∀ y ∈ s.fa.units, ∀ z ∈ y.inMotion, z.1 ≠ d.act) →
          s.StepEntered u h { s.hatch h with owner := some c } o k
            (if (s.stepRec h o k).attended then .live s.image.global.holdWindow else .stopped) []
            (s.fa.units.filter fun y => y.hatch != h)) ∧
      (let binary := s.stepBinary h r
       let drives := s.stepDrives h r
       let dStep := (binary.map fun p => s.image.demand p.1).sum
       let actions := drives.map fun d => (d.act, s.image.minFlow d.act)
       let done := s.setHolds h r.doneSet
       let ends := fun (d : DriveAction) (f : PropFields) => s.roleTrue h (f.endRole d.dir) = true ∨
         ∃ p, s.position h f = some p ∧ match d.dir with
           | .outward => (d.stop : Int) ≤ p
           | .inward => p ≤ d.stop
       let once := fun (a : ActId) => ∀ d ∈ drives, ∀ d' ∈ drives, d.act = a → d'.act = a → d = d'
       trips = {} → holds = {} → s.fa.queue = [] → 0 < s.fa.avail →
       (s.fa.demand + s.fa.minimum + dStep + (actions.map (·.2)).sum ≤ s.fa.avail ∨
         dStep = 0 ∧ (actions.map (·.2)).sum = 0) →
       (done = false ∨ r.settle ≠ 0) →
         u.hatch h =
           { s.hatch h with
               state := .running, operation := some o, step := some n, owner := some c,
               phase := if done then some .settling else some .acting, stepTimer := some (r.timeout * 100),
               settleTimer := if done then some r.settle else (s.hatch h).settleTimer } ∧
         u.window h = (if r.attended then .live s.image.global.holdWindow else .stopped) ∧
         u.fa.queue = [] ∧ u.fa.avail = s.fa.avail ∧
         u.fa.units.map FlowUnit.hatch = s.fa.units.map FlowUnit.hatch ++ [h] ∧
         u.fa.demand = s.fa.demand + dStep ∧
         ((∀ d ∈ drives, ∀ f, (s.image.actuator.read d.act).kind = .proportional f → ¬ ends d f) →
           u.fa.units = s.fa.units ++ [.step { hatch := h, dStep := dStep, actions := actions } actions]) ∧
         (∀ p ∈ binary, s.soleChannel h p.1 → (∀ q ∈ binary, q.1 = p.1 → q = p) →
           u.actValue p.1 = if done then 0 else p.2) ∧
         (∀ d ∈ drives, ∀ f, (s.image.actuator.read d.act).kind = .proportional f → once d.act →
           (ends d f → u.drive d.act = {} ∧ ∀ y ∈ u.fa.units, ∀ z ∈ y.inMotion, z.1 ≠ d.act) ∧
           (¬ ends d f →
             u.drive d.act =
               { s.drive d.act with
                   state := .inMotion, direction := some d.dir, speed := some d.speed, stopPosition := some d.stop,
                   target := targetOf f (s.image.actuator.read d.act).side d.dir d.speed d.stop (s.position h f) s.heel
                     s.image.global.heelSoft,
                   paused := (s.position h f).isNone, alloc := (u.drive d.act).alloc })) ∧
         ∀ k, k ≠ h → u.hatch k = s.hatch k ∧ u.window k = s.window k)

/-- An OPEN or CLOSE from the owner of a hatch in motion (R83, R82, R84): in STOPPING it takes the pending slot,
QUEUED or SUPERSEDED; of the opposite operation in RUNNING or HELD it stops the hatch and waits in the slot, QUEUED,
the step's binary channels 0 and its drives ramping down or standing (R82, R120; the paused mark of a drive at rest by
log entry 45), unless the trip set fails, which trips the hatch, or every drive stands, when the stop ends at once.
The hatch is then IDLE with the marker at the interrupted step, its request discarded, while MOTION_EN is deasserted
or LINK_LAPSE set; else the request is started: its console is the owner, and the step that the reverse field of the
interrupted one names, or step 0, is entered by R71 with the window started afresh where it is attended. The STOPPED
notice, and PENDING_DISCARDED with the reason or PENDING_STARTED with the starting step, are offered (R92), their
bytes those of the record after the occasion by log entries 14 and 15, the state of a PENDING_STARTED left open. -/
def Obligations.OwnersRequestFillsThePendingSlot : Prop :=
  ∀ (s : State) (c : Console) (tag : Byte) (q : OpReq) (o : Op) (h : Hatch), q.operation = some o →
    s.headOperate = some (c, tag, q, [h]) → s.enabled h = true → s.mu.mode = .operate →
    (s.hatch h).owner = some c →
    let served : State := { s with cp := { s.cp with rx := s.cp.rx.tail } }
    let reply := fun (code : Byte) =>
      TxEntry.own .mgmtReply c.addr tag [0#8, byte q.code, 1#8, byte h.number, code] false
    ((s.hatch h).state = .stopping →
      exec q.command s = .next
        (({ served with hatches := s.hatches.put h { s.hatch h with request := some (o, c) } } : State).offer
          (reply (if (s.hatch h).request = none then 3#8 else 4#8)))) ∧
    (∀ n, ((s.hatch h).state = .running ∨ (s.hatch h).state = .held) → (s.hatch h).operation = some o.opposite →
      (s.hatch h).step = some n →
      ∃ u : State, exec q.command s = .next (u.offer (reply 3#8)) ∧ u.still = served.still ∧
        (s.setHolds h (s.stepRec h o.opposite n).tripSet = false →
          (u.hatch h).state = .tripped ∧ (u.hatch h).trips = { tripCondition := true } ∧
          (u.hatch h).request = none ∧ (u.hatch h).marker = some (o.opposite, n)) ∧
        (s.setHolds h (s.stepRec h o.opposite n).tripSet = true → (∃ a ∈ s.propActs h, (s.drive a).c ≠ 0) →
          u.hatch h =
            { s.hatch h with
                state := .stopping, phase := none, stepTimer := none, settleTimer := none, active := {}, latched := {},
                history := {}, request := some (o, c) } ∧
          s.OutputsWithdrawn u h (s.stepRec h o.opposite n) ∧
          u.window h = .stopped ∧ (∀ x ∈ u.fa.queue, x.hatch ≠ h) ∧ ∀ x ∈ u.fa.units, x.hatch ≠ h) ∧
        (s.setHolds h (s.stepRec h o.opposite n).tripSet = true → (∀ a ∈ s.propActs h, (s.drive a).c = 0) →
          let event := fun (occasion detail : Nat) (m : Option (Op × StepNo)) (state owner : Byte) =>
            TxEntry.own .notice 0#8 0#8
              [4#8, byte h.number, byte occasion, state, optByte (m.map (·.1.code)), optByte (m.map (·.2.val)),
                byte (s.hatch h).rest.code, byte detail, owner] false
          let stopped := event 2 0 (some (o.opposite, n)) 0#8 255#8
          let quiet : Prop := s.cp.tx = [] ∧ ∀ x ∈ s.fa.queue, x.hatch = h
          (u.hatch h).request = none ∧ (u.hatch h).state ≠ .stopping ∧
          (s.motionEn = false ∨ s.ls.lapse = true →
            u.hatch h =
              { s.hatch h with
                  state := .idle, operation := none, step := none, phase := none, request := none, owner := none,
                  active := {}, latched := {}, history := {}, stepTimer := none, settleTimer := none,
                  marker := some (o.opposite, n) } ∧
            u.window h = .stopped ∧
            (quiet → u.cp.tx = [stopped, event 4 (if s.motionEn = false then 11 else 9) none 0#8 255#8])) ∧
          (s.motionEn = true → s.ls.lapse = false →
            let k := (s.stepRec h o.opposite n).reverse.getD 0
            (quiet → ∃ state, stopped ∈ u.cp.tx ∧ event 3 0 (some (o, k)) state (byte (48 + c.val)) ∈ u.cp.tx) ∧
            s.StepEntered u h
              { s.hatch h with
                  owner := some c, request := none, marker := some (o.opposite, n), active := {}, latched := {},
                  history := {} } o k
              (if (s.stepRec h o k).attended then .live s.image.global.holdWindow else .stopped)
              (s.fa.queue.filter fun x => x.hatch != h) (s.fa.units.filter fun x => x.hatch != h))))

/-- PAUSE and RESUME. PAUSE from any console (R79): a HELD hatch without PAUSE takes it into its three sets; a RUNNING
hatch goes to HELD by R77, out of the flow lists, the step's binary channels 0 and its drives ramping down or standing
(R77, R120; the paused mark of a drive at rest by log entry 45), with PAUSE active and latched, and with CONDITION too
when its start or hold set fails; it trips when its trip set fails. The result is ACCEPTED. RESUME from the owner of a
HELD hatch (R80, R81): PAUSE leaves the active set and the latched set is emptied; a hatch that another cause still
holds is answered REFUSED_CONDITION and stays HELD; else it is RESUMED, its last resume cause REQUEST with the hold
history, and enters its step again by R71 with every outcome of its table, its request that of R95, its window as it
was on an attended step. -/
def Obligations.PauseHoldsAndResumeReenters : Prop :=
  (∀ (s : State) (c : Console) (tag : Byte) (h : Hatch), s.headOperate = some (c, tag, .pause, [h]) →
     s.enabled h = true → s.mu.mode = .operate →
     let served : State := { s with cp := { s.cp with rx := s.cp.rx.tail } }
     let reply := TxEntry.own .mgmtReply c.addr tag [0#8, 3#8, 1#8, byte h.number, 1#8] false
     ((s.hatch h).state = .held → (s.hatch h).active.pause = false →
       exec .pause s = .next
         (({ served with
               hatches := s.hatches.put h
                 { s.hatch h with
                     active := { (s.hatch h).active with pause := true },
                     latched := { (s.hatch h).latched with pause := true },
                     history := { (s.hatch h).history with pause := true } } } : State).offer reply)) ∧
     (∀ r, (s.hatch h).state = .running → s.currentStep h = some r →
       ∃ u : State, exec .pause s = .next (u.offer reply) ∧ u.still = served.still ∧
         (∀ x ∈ u.fa.queue, x.hatch ≠ h) ∧ (∀ x ∈ u.fa.units, x.hatch ≠ h) ∧
         (s.setHolds h r.tripSet = false →
           (u.hatch h).state = .tripped ∧ (u.hatch h).trips = { tripCondition := true } ∧ u.window h = .stopped) ∧
         (s.setHolds h r.tripSet = true →
           let condition := !(s.setHolds h r.startSet && s.setHolds h r.holdSet)
           u.hatch h =
             { s.hatch h with
                 state := .held, phase := none, stepTimer := none, settleTimer := none,
                 active := { pause := true, condition := condition },
                 latched := { pause := true, condition := condition && !(s.hatchRec h).resume.condition },
                 history := { pause := true, condition := condition } } ∧
           s.OutputsWithdrawn u h r ∧ u.window h = s.window h))) ∧
  (∀ (s : State) (c : Console) (tag : Byte) (h : Hatch), s.headOperate = some (c, tag, .resume, [h]) →
     s.enabled h = true → s.mu.mode = .operate → (s.hatch h).state = .held → (s.hatch h).owner = some c →
     let served : State := { s with cp := { s.cp with rx := s.cp.rx.tail } }
     let reply := fun (code : Byte) => TxEntry.own .mgmtReply c.addr tag [0#8, 4#8, 1#8, byte h.number, code] false
     let active := { (s.hatch h).active with pause := false }
     (active ≠ {} →
       exec .resume s = .next
         (({ served with hatches := s.hatches.put h { s.hatch h with active := active, latched := {} } } : State).offer
           (reply 13#8))) ∧
     (∀ r, active = {} → s.currentStep h = some r →
       ∃ u : State, exec .resume s = .next (u.offer (reply 2#8)) ∧ u.still = served.still ∧
         (u.hatch h).lastResume = some (.request, (s.hatch h).history) ∧
         (∀ o n, (s.hatch h).operation = some o → (s.hatch h).step = some n →
           s.StepEntered u h
             { s.hatch h with
                 active := {}, latched := {}, history := {}, lastResume := some (.request, (s.hatch h).history) } o n
             (if r.attended then s.window h else .stopped) s.fa.queue s.fa.units) ∧
         (s.setHolds h r.tripSet = true → s.setHolds h r.startSet = true → s.setHolds h r.holdSet = true →
           s.boundLost h = false → s.boundFault h = false → s.roleTrue h .localEstop = false → s.ls.lapse = false →
           (r.attended = false ∨ s.window h ≠ .lapsed) → s.fa.queue ≠ [] →
           u.hatch h =
             { s.hatch h with
                 state := .running, phase := some .flowWait, active := {}, latched := {}, history := {},
                 stepTimer := none, settleTimer := none,
                 lastResume := some (.request, (s.hatch h).history) } ∧
           u.window h = (if r.attended then s.window h else .stopped) ∧
           u.fa.units = s.fa.units ∧ u.fa.queue = s.fa.queue ++ [s.requestOf h r])))

/-- MANUAL_ENTER for an IDLE hatch with motion released and LINK_LAPSE clear (R89, R101): REFUSED_FLOW, with nothing
changed, when the reservation cannot be admitted at once; else ACCEPTED: the reservation joins the tail of the
admission list, the console becomes owner, the marker is cleared and the hold window starts; a LOST bound node or a
true LOCAL_ESTOP trips the hatch at the same event. MANUAL_LEAVE from the owner (R91, R159): ACCEPTED; the hatch is
IDLE without an owner, its window stopped, its reservation released, its GUARDED shadows neutral, its GUARDED channels
neutral and dirty as R159 gives (one held neutral already is not written, R146), and its queued writes removed, a
BLOCKED notice with reason NOT_MANUAL for the one frame removed (Table 10-3). -/
def Obligations.ManualSessionIsEnteredAndLeft : Prop :=
  (∀ (s : State) (c : Console) (tag : Byte) (h : Hatch), s.headOperate = some (c, tag, .manualEnter, [h]) →
     s.enabled h = true → s.mu.mode = .operate → (s.hatch h).state = .idle → s.motionEn = true → s.ls.lapse = false →
     let served : State := { s with cp := { s.cp with rx := s.cp.rx.tail } }
     let reply := fun (code : Byte) => TxEntry.own .mgmtReply c.addr tag [0#8, 5#8, 1#8, byte h.number, code] false
     let v := (s.hatchRec h).reservation
     let fits : Prop := v = 0 ∨ (s.fa.demand + s.fa.minimum + v ≤ s.fa.avail ∧ s.fa.queue = [])
     (¬ fits → exec .manualEnter s = .next (served.offer (reply 12#8))) ∧
     (fits →
       ∃ u : State, exec .manualEnter s = .next (u.offer (reply 1#8)) ∧ u.still = served.still ∧
         (s.boundLost h = false → s.roleTrue h .localEstop = false →
           u.fa = { s.fa with units := s.fa.units ++ [.manual h v] } ∧
           u.hatch h = { s.hatch h with state := .manual, owner := some c, marker := none } ∧
           u.window h = .live s.image.global.holdWindow ∧ u.oir = s.oir ∧ u.shadows = s.shadows ∧
           u.flc = s.flc ∧ ∀ k, k ≠ h → u.hatch k = s.hatch k ∧ u.window k = s.window k) ∧
         (s.boundLost h = true ∨ s.roleTrue h .localEstop = true →
           (u.hatch h).state = .tripped ∧ (u.hatch h).owner = some c ∧ (u.hatch h).marker = none ∧
           (u.hatch h).trips = { nodeLost := s.boundLost h, localEstop := s.roleTrue h .localEstop } ∧
           u.window h = .stopped ∧ ∀ x ∈ u.fa.units, x.hatch ≠ h))) ∧
  (∀ (s : State) (c : Console) (tag : Byte) (h : Hatch), s.headOperate = some (c, tag, .manualLeave, [h]) →
     s.enabled h = true → s.mu.mode = .operate → (s.hatch h).state = .manual → (s.hatch h).owner = some c →
     (∀ x ∈ s.fa.queue, x.hatch ≠ h) →
     ∃ u : State, exec .manualLeave s =
         .next (u.offer (.own .mgmtReply c.addr tag [0#8, 6#8, 1#8, byte h.number, 1#8] false)) ∧
       u.still = ({ s with cp := { s.cp with rx := s.cp.rx.tail } } : State).still ∧
       u.hatch h =
         { s.hatch h with
             state := .idle, operation := none, step := none, phase := none, request := none, owner := none,
             active := {}, latched := {}, history := {}, stepTimer := none, settleTimer := none } ∧
       u.window h = .stopped ∧ (∀ x ∈ u.fa.units, x.hatch ≠ h) ∧
       s.Neutralised u h ∧ (s.cp.tx = [] → s.fa.queue = [] → ∀ y, s.BlockedNotice h 2#8 y → u.cp.tx = [y]))

/-! ### The Traffic Filter -/

/-- The judgement of one write pair by Table 10-2, the first line that applies (R156), and the first blocked pair of a
frame. A GUARDED pair that passes is clamped (R157): a proportional value to 2048 plus or less the manual span, a binary
value above 2 to 0; other pairs are left as written. Only the payload is rewritten, and a frame in which no value changed
is forwarded as it came. -/
def Obligations.WritePairsAreJudgedAndClamped : Prop :=
  (∀ (s : State) (n : Node) (c : Console) (ch : Chan),
     let r := s.image.chan n ch
     (r.cls = .owned → s.blockReason n c ch = some .owned) ∧
     (r.cls = .free → s.blockReason n c ch = none) ∧
     (r.cls = .guarded →
       (s.mu.mode = .config ∨ s.mu.mode = .storing → s.blockReason n c ch = some .mode) ∧
       (s.mu.mode = .operate ∨ s.mu.mode = .noTables →
         ((s.hatch r.hatch).state ≠ .manual → s.blockReason n c ch = some .notManual) ∧
         ((s.hatch r.hatch).state = .manual →
           ((s.hatch r.hatch).owner ≠ some c → s.blockReason n c ch = some .notOwner) ∧
           ((s.hatch r.hatch).owner = some c →
             ((s.window r.hatch = .stopped ∨ s.window r.hatch = .lapsed) →
               s.blockReason n c ch = some .holdLapsed) ∧
             (∀ left, s.window r.hatch = .live left →
               (s.setHolds r.hatch r.permit = false → s.blockReason n c ch = some .permitFailed) ∧
               (s.setHolds r.hatch r.permit = true → s.blockReason n c ch = none)))))) ∧
     ∀ pairs, (s.firstBlocked n c pairs = none ↔ ∀ p ∈ pairs, s.blockReason n c p.1 = none) ∧
       ∀ ch reason, s.firstBlocked n c pairs = some (ch, reason) ↔
         ∃ before p after, pairs = before ++ p :: after ∧ p.1 = ch ∧ s.blockReason n c ch = some reason ∧
           ∀ x ∈ before, s.blockReason n c x.1 = none) ∧
  (∀ (im : TableImage) (n : Node) (p : Chan × Nat),
     ((im.chan n p.1).cls ≠ .guarded → im.clampPair n p = p) ∧
     ((im.chan n p.1).cls = .guarded →
       (im.clampPair n p).1 = p.1 ∧
       ((im.chan n p.1).kind = .proportional →
         (2048 + (im.chan n p.1).span < p.2 → (im.clampPair n p).2 = 2048 + (im.chan n p.1).span) ∧
         (p.2 < 2048 - (im.chan n p.1).span → (im.clampPair n p).2 = 2048 - (im.chan n p.1).span) ∧
         (2048 - (im.chan n p.1).span ≤ p.2 → p.2 ≤ 2048 + (im.chan n p.1).span → im.clampPair n p = p) ∧
         ((im.chan n p.1).span = 0 → (im.clampPair n p).2 = 2048)) ∧
       ((im.chan n p.1).kind = .binary →
         (p.2 ≤ 2 → im.clampPair n p = p) ∧ (2 < p.2 → (im.clampPair n p).2 = 0))) ∧
     ∀ (f : Frame) (pairs : List (Chan × Nat)), parseFieldReq f.payload = some (.writeOutputs pairs) →
       parseFieldReq (im.clampFrame n f pairs).payload = some (.writeOutputs (pairs.map (im.clampPair n))) ∧
       { im.clampFrame n f pairs with payload := f.payload } = f ∧
       (im.clampFrame n f pairs).payload.length = f.payload.length ∧
       (pairs.map (im.clampPair n) = pairs → im.clampFrame n f pairs = f))

/-- The service of a console FIELD_REQ (R156, R158): a read is forwarded unchanged; a write with a blocked pair is
discarded with one BLOCKED notice, and no shadow changes; a write that passes joins the tail of the F forward queue
clamped, and the shadow and the image value of each GUARDED channel take the last value forwarded to it, without a dirty
mark of the write's own. That a dirty mark the channel already has stays is the model's reading (log entry 17). -/
def Obligations.ConsoleFieldRequestIsJudged : Prop :=
  ∀ (s : State) (f : Frame) (c : Console) (n : Node) (q : FieldReq), s.headService = some (.field f c n q) →
    let served : State := { s with cp := { s.cp with rx := s.cp.rx.tail } }
    (q = .readInputs ∨ q = .readStatus →
      exec .fieldReqJudge s = .next { served with flc := { s.flc with forward := s.flc.forward ++ [f] } }) ∧
    (∀ pairs ch reason, q = .writeOutputs pairs → s.firstBlocked n c pairs = some (ch, reason) →
      exec .fieldReqJudge s = .next
        (served.offer (.own .notice c.addr f.tag [3#8, byte ch.val, byte reason.code] false))) ∧
    (∀ pairs, q = .writeOutputs pairs → s.firstBlocked n c pairs = none →
      ∃ t, exec .fieldReqJudge s = .next t ∧
        t.flc = { s.flc with forward := s.flc.forward ++ [s.image.clampFrame n f pairs] } ∧
        { t with flc := s.flc, oir := s.oir, shadows := s.shadows } = served ∧
        t.oir.refreshLeft = s.oir.refreshLeft ∧
        (∀ m ch, (t.outChan m ch).dirty = (s.outChan m ch).dirty) ∧
        (∀ m ch, (m ≠ n ∨ (s.image.chan n ch).cls ≠ .guarded ∨ ∀ p ∈ pairs, p.1 ≠ ch) →
          t.shadow m ch = s.shadow m ch ∧ t.outChan m ch = s.outChan m ch) ∧
        (∀ before p after, pairs = before ++ p :: after → (∀ x ∈ after, x.1 ≠ p.1) →
          (s.image.chan n p.1).cls = .guarded →
          t.shadow n p.1 = (s.image.clampPair n p).2 ∧ (t.outChan n p.1).value = (s.image.clampPair n p).2))

/-! ### The field line -/

/-- The arbiter's choice on a line without a transaction (R144, R145): NEUTRAL while its mark is set; else a part write to
the lowest-numbered node in the map that is not LOST and has a dirty channel; else forwarded work or a scan poll, the one
kind that waits, or the one the turn marker names; an alert read to the lowest node with one pending comes before the
head of the F forward queue, and the next due node is the lowest above the position, or else the lowest. -/
def Obligations.ArbiterSendsTheFirstWaitingWork : Prop :=
  ∀ s : State,
    let writable := fun (n : Node) =>
      ((s.node n).state = .unknown ∨ (s.node n).state = .present) ∧ ∃ ch, (s.outChan n ch).dirty = true
    let due := fun (n : Node) => (s.flc.scan.read n).due = true
    (s.flc.outstanding ≠ none → s.choice = none) ∧
    (s.flc.outstanding = none →
      (s.flc.neutralPending = true → s.choice = some .neutral) ∧
      (s.flc.neutralPending = false →
        (∀ n, writable n → (∀ m, m < n → ¬ writable m) → s.choice = some (.write n)) ∧
        ((∀ n, ¬ writable n) →
          s.choice =
            match s.forwardedWork, s.nextDue with
            | some w, some n => if s.flc.turn = .forwardedWork then some w else some (.poll n)
            | some w, none => some w
            | none, some n => some (.poll n)
            | none, none => none))) ∧
    (∀ n, (s.node n).alertPending = true → (∀ m, m < n → (s.node m).alertPending = false) →
      s.forwardedWork = some (.alert n)) ∧
    ((∀ n, (s.node n).alertPending = false) → s.forwardedWork = s.flc.forward.head?.map .forward) ∧
    (∀ n, s.nextDue = some n ↔
      due n ∧ ((s.flc.position < n.val + 1 ∧ ∀ m, due m → s.flc.position < m.val + 1 → n ≤ m) ∨
        ((∀ m, due m → m.val + 1 ≤ s.flc.position) ∧ ∀ m, due m → n ≤ m)))

/-- The beginning of what the arbiter has chosen (R142, R144 to R146, R151, R153): NEUTRAL is sent to destination 0 with
no payload and is no transaction; a part request takes the next value of the tag counter; a write carries every dirty
channel of the node, whose marks are cleared; an alert read clears its mark; a forwarded request keeps the console's
frame and leaves the F forward queue; a poll clears the due mark, restarts the scan timer and moves the position. -/
def Obligations.ChosenWorkBeginsOnTheLine : Prop :=
  ∀ s : State,
    (s.choice = some .neutral →
      ∃ tag, exec .neutralSend s = .next
        { s with
            flc := { s.flc with
              neutralPending := false,
              lineOut := some
                { bytes := ({ kind := .neutral, dest := 0#8, src := s.ownAddr, tag := tag, status := 0#8,
                              payload := [] } : Frame).encode,
                  rate := s.mu.fRate } },
            freeCount := s.freeCount + 1 }) ∧
    (∀ n, s.choice = some (.write n) →
      let pairs := ((s.oir.image.read n).entries.filter fun p => p.2.dirty).map fun p => (p.1, p.2.value)
      exec .partWriteBegin s = .next
        { s with
            oir := { s.oir with
              image := s.oir.image.put n ((s.oir.image.read n).mapAll fun o => { o with dirty := false }) },
            flc := { s.flc with
              outstanding := some
                { node := n, fn := .writeOutputs, tag := s.flc.tagCounter, requester := .part, sent := pairs,
                  left := none },
              tagCounter := s.flc.tagCounter + 1,
              lineOut := some
                { bytes := ({ kind := .fieldReq, dest := n.addr, src := s.ownAddr, tag := s.flc.tagCounter,
                              status := 0#8, payload := 2#8 :: byte pairs.length :: encodePairs pairs } : Frame).encode,
                  rate := s.mu.fRate } } }) ∧
    (∀ n, s.choice = some (.alert n) →
      exec .alertReadBegin s = .next
        { s with
            flc := { s.flc with
              nodes := s.flc.nodes.put n { s.node n with alertPending := false },
              outstanding := some
                { node := n, fn := .readStatus, tag := s.flc.tagCounter, requester := .part, sent := [],
                  left := none },
              tagCounter := s.flc.tagCounter + 1, turn := .scanPolls,
              lineOut := some
                { bytes := ({ kind := .fieldReq, dest := n.addr, src := s.ownAddr, tag := s.flc.tagCounter,
                              status := 0#8, payload := [3#8] } : Frame).encode,
                  rate := s.mu.fRate } } }) ∧
    (∀ f n c q, s.choice = some (.forward f) → nodeAt f.destAddr = some n → consoleAt f.srcAddr = some c →
      parseFieldReq f.payload = some q →
      exec .forwardBegin s = .next
        { s with
            flc := { s.flc with
              outstanding := some
                { node := n, fn := q.fn, tag := f.tag, requester := .console c, sent := [], left := none },
              forward := s.flc.forward.tail, turn := .scanPolls,
              lineOut := some { bytes := f.encode, rate := s.mu.fRate } } }) ∧
    (∀ n, s.choice = some (.poll n) →
      exec .scanPollBegin s = .next
        { s with
            flc := { s.flc with
              scan := s.flc.scan.put n { due := false, left := some s.image.global.scanPeriod },
              position := n.val + 1, turn := .forwardedWork,
              outstanding := some
                { node := n, fn := .readInputs, tag := s.flc.tagCounter, requester := .part, sent := [],
                  left := none },
              tagCounter := s.flc.tagCounter + 1,
              lineOut := some
                { bytes := ({ kind := .fieldReq, dest := n.addr, src := s.ownAddr, tag := s.flc.tagCounter,
                              status := 0#8, payload := [1#8] } : Frame).encode,
                  rate := s.mu.fRate } } })

/-- The reply timeout starts when the request's last byte has been sent (R142). Its expiry discards the record and
counts a miss (R148): the first and the second leave the node in its state; the third of a node in the map declares it
LOST, sets NODE_LOST, cancels a pending alert read, trips every bound hatch that is neither IDLE nor TRIPPED with
first cause NODE_LOST, and makes the node's signals INVALID (R25). A hatch tripped out of MANUAL is neutralised (R86,
R159), its GUARDED channels neutral and dirty as R159 gives (one held neutral already is not written, R146), with a
BLOCKED notice of reason NOT_MANUAL for the one frame removed. The update events of the INVALID signals decide the
steps of the hatches not bound to the node, as those of a reply do. That a drive that ends has its paused mark cleared
is log entry 45, and the notices' bytes are those of log entries 14 and 15. The channels of a part write are dirty
again; a console is sent NOREPLY, as the last frame of the event (log entry 16). -/
def Obligations.ReplyTimeoutCountsAMiss : Prop :=
  ∀ (s : State) (x : Transaction), s.flc.outstanding = some x →
    (x.left = none →
      exec .requestSent s = .next
        { s with flc := { s.flc with
            outstanding := some { x with left := some s.image.global.replyTimeout } } }) ∧
    (x.left ≠ none →
      ∃ u t, exec .replyTimeout s = .next t ∧ u.flc.outstanding = none ∧ u.mu.mode = s.mu.mode ∧
        (∀ c, x.requester = .console c → t = u.offer (.own .notice c.addr x.tag [2#8, x.node.addr] false)) ∧
        (x.requester = .part →
          (∀ p ∈ x.sent, t.outChan x.node p.1 = { u.outChan x.node p.1 with dirty := true }) ∧
          (∀ n ch, n ≠ x.node ∨ (∀ p ∈ x.sent, p.1 ≠ ch) → t.outChan n ch = u.outChan n ch) ∧
          { t with oir := u.oir } = u) ∧
        ((s.node x.node).state = .absent ∨ (s.node x.node).state = .lost →
          u = { s with flc := { s.flc with outstanding := none } }) ∧
        ((s.node x.node).state = .unknown ∨ (s.node x.node).state = .present →
          ((s.node x.node).misses < 2 →
            u = { s with
                    flc := { s.flc with
                      outstanding := none,
                      nodes := s.flc.nodes.put x.node
                        { s.node x.node with misses := (s.node x.node).misses + 1 } } }) ∧
          (2 ≤ (s.node x.node).misses →
            u.node x.node = { s.node x.node with state := .lost, misses := 3, alertPending := false } ∧
            u.flag .nodeLost = true ∧
            (∀ h, s.image.boundNode h x.node = true → (s.hatch h).state ≠ .idle → (s.hatch h).state ≠ .tripped →
              (u.hatch h).state = .tripped ∧ (u.hatch h).firstTrip = some .nodeLost ∧ u.window h = .stopped ∧
              ((s.hatch h).state = .manual → s.Neutralised u h ∧
                ((∀ k, k ≠ h → (s.hatch k).state = .idle ∨ (s.hatch k).state = .tripped) → s.cp.tx = [] →
                  s.fa.queue = [] → ∀ y, s.BlockedNotice h 2#8 y → y ∈ u.cp.tx))) ∧
            (∀ h r, s.enabled h = true → s.image.boundNode h x.node = false → s.currentStep h = some r →
              s.UpdatesDecide u h r) ∧
            (∀ i, u.signal i =
              if (s.image.signal.read i).node = some x.node then
                { value := (s.signal i).value, quality := .invalid, age := (s.image.signal.read i).maxAge,
                  candidate := none, run := 0 }
              else s.signal i))))

/-- The test of a frame on the F-line (R143): it is the reply of the outstanding transaction when the part has finished
sending, the frame is a valid FIELD_REPLY from the addressed node to the requester with the transaction's tag, and its
payload is of the form of the transaction's function. Any other frame, received while the part is not transmitting, sets
F_FRAME_ERR and changes nothing else. -/
def Obligations.UnmatchedFrameSetsFFrameErr : Prop :=
  ∀ (s : State) (run : Run),
    (∀ x f q, s.matchReply run = some (x, f, q) ↔
      s.flc.outstanding = some x ∧ x.left ≠ none ∧ checkRun run = .valid f ∧ f.kind = .fieldReply ∧
        f.srcAddr = x.node.val + 1 ∧
        f.destAddr = (match x.requester with
          | .part => addrOf s.ownAddr
          | .console c => 48 + c.val) ∧
        f.tag = x.tag ∧ parseFieldReply f.payload = some q ∧ q.fn = x.fn) ∧
    (run.bytes ≠ [] → (∀ x, s.flc.outstanding = some x → x.left ≠ none) → s.matchReply run = none →
      exec (.fFrameDiscard run) s = .next
        { s with mu := { s.mu with flags := s.mu.flags ||| Flag.fFrameErr.mask } })

/-- A reply taken (R149): the transaction ends, the node is PRESENT with miss count 0 and its alert run updated (R151,
R152), and a console's reply is forwarded as it came (R136), as the last frame of the event (log entry 16).
READ_INPUTS samples the node's signals together (R20), and a LOCAL_ESTOP that becomes FRESH and true trips its hatch
with that cause, first unless the trip set failed too, joins the causes of a TRIPPED one and leaves an IDLE one (R85,
Table 2-3); READ_STATUS stores the fault word (R151), also where it is the sixth reply with ALERT (log entry 51), and
a change of it between zero and non-zero reaches every hatch the node is bound to (R78): NODE_FAULT takes a RUNNING
hatch to HELD by R77, or to TRIPPED where its trip set fails, joins the sets of a HELD one, and ends when no bound
node has a fault, where a hatch that nothing else holds resumes by AUTO and enters its step again by R71; a part
WRITE_OUTPUTS whose echo does not match sets READBACK_MISMATCH and delivers READBACK (R150), while a part write whose
every echo matches, one with readback disabled and a console's write set no such flag and change no hatch. A trip out
of MANUAL neutralises the hatch (R86, R159). A node that has left the map changes nothing but the transaction (R148).
That the first pair of a channel echoed twice is the one compared is the model's reading (log entry 21). -/
def Obligations.TakenReplyActsByItsFunction : Prop :=
  ∀ (s : State) (run : Run) (x : Transaction) (f : Frame) (q : FieldReply) (c : Instr),
    s.matchReply run = some (x, f, q) →
    (c = .inputsReply run ∧ x.fn = .readInputs ∨ c = .outputsReply run ∧ x.fn = .writeOutputs ∨
      c = .statusReply run ∧ x.fn = .readStatus) →
    let before := s.node x.node
    let ended := if x.fn = .writeOutputs ∧ before.saturated = true then
        { before with saturated := false, alertRun := 0 } else before
    let base := { ended with state := .present, misses := 0, sinceReply := 0 }
    let after :=
      if ended.saturated then base
      else if f.status.getLsbD 7 = false then { base with alertRun := 0 }
      else if ended.alertRun + 1 < 6 then { base with alertRun := ended.alertRun + 1, alertPending := true }
      else { base with alertRun := 6, saturated := true, alertPending := false }
    ∃ u t, exec c s = .next t ∧
      (x.requester = .part → t = u) ∧ (∀ k, x.requester = .console k → t = u.offer (.forwarded f)) ∧
      u.flc.outstanding = none ∧ u.mu.mode = s.mu.mode ∧ u.cp.rx = s.cp.rx ∧
      (before.state = .absent → u = { s with flc := { s.flc with outstanding := none } }) ∧
      (before.state ≠ .absent →
        (∀ v, q = .inputs v →
          u.node x.node = after ∧
          (∀ i, u.signal i =
            let r := s.image.signal.read i
            if r.node = some x.node then
              match v[r.channel.val]? with
              | some w => (s.signal i).sample r w
              | none => s.signal i
            else s.signal i) ∧
          ∀ h i, s.enabled h = true → (s.hatchRec h).signalOf .localEstop = some i →
            (u.signal i).quality = .fresh → (u.signal i).value ≠ 0 →
            ((s.signal i).quality ≠ .fresh ∨ (s.signal i).value = 0) →
            ((s.hatch h).state.atRest = false →
              (u.hatch h).state = .tripped ∧ (u.hatch h).trips.localEstop = true ∧ u.window h = .stopped ∧
              (u.hatch h).firstTrip =
                (if (u.hatch h).trips.tripCondition then some .tripCondition else some .localEstop) ∧
              (u.hatch h).marker =
                (if (s.hatch h).state = .manual then (s.hatch h).marker else (s.hatch h).here) ∧
              ((s.hatch h).state = .manual → s.Neutralised u h)) ∧
            ((s.hatch h).state = .tripped →
              u.hatch h =
                { s.hatch h with trips := { (s.hatch h).trips with localEstop := true }, rest := (u.hatch h).rest }) ∧
            ((s.hatch h).state = .idle → u.hatch h = { s.hatch h with rest := (u.hatch h).rest })) ∧
        (∀ w, q = .status w → u.node x.node = { after with faultWord := w } ∧ u.signals = s.signals ∧
          ((before.faultWord = 0 ↔ w = 0) → u.hatches = s.hatches) ∧
          (∀ h, s.image.boundNode h x.node = false → (s.hatch h).waiting = false → u.hatch h = s.hatch h) ∧
          (before.faultWord = 0 → w ≠ 0 → ∀ h, s.image.boundNode h x.node = true →
            (∀ r, (s.hatch h).state = .running → s.currentStep h = some r →
              (s.setHolds h r.tripSet = false →
                (u.hatch h).state = .tripped ∧ (u.hatch h).trips = { tripCondition := true }) ∧
              (s.setHolds h r.tripSet = true →
                let condition := !(s.setHolds h r.startSet && s.setHolds h r.holdSet)
                u.hatch h =
                  { s.hatch h with
                      state := .held, phase := none, stepTimer := none, settleTimer := none,
                      active := { nodeFault := true, condition := condition },
                      latched := { nodeFault := !(s.hatchRec h).resume.nodeFault,
                                   condition := condition && !(s.hatchRec h).resume.condition },
                      history := { nodeFault := true, condition := condition } } ∧
                (∀ y ∈ u.fa.queue, y.hatch ≠ h) ∧ ∀ y ∈ u.fa.units, y.hatch ≠ h)) ∧
            ((s.hatch h).state = .held →
              u.hatch h =
                if (s.hatch h).active.nodeFault then s.hatch h
                else
                  { s.hatch h with
                      active := { (s.hatch h).active with nodeFault := true },
                      latched := { (s.hatch h).latched with
                        nodeFault := (s.hatch h).latched.nodeFault || !(s.hatchRec h).resume.nodeFault },
                      history := { (s.hatch h).history with nodeFault := true } }) ∧
            ((s.hatch h).state ≠ .running → (s.hatch h).state ≠ .held → u.hatch h = s.hatch h)) ∧
          (before.faultWord ≠ 0 → w = 0 → ∀ h, s.image.boundNode h x.node = true →
            (s.hatch h).state = .held → (s.hatch h).active.nodeFault = true →
            let active := { (s.hatch h).active with nodeFault := false }
            (u.boundFault h = true ∨ active ≠ {} ∨ (s.hatch h).latched ≠ {} →
              u.hatch h = if u.boundFault h then s.hatch h else { s.hatch h with active := active }) ∧
            (u.boundFault h = false → active = {} → (s.hatch h).latched = {} → (s.currentStep h).isSome = true →
              (u.hatch h).lastResume = some (.auto, (s.hatch h).history) ∧
              ∀ o n, (s.hatch h).operation = some o → (s.hatch h).step = some n →
                let now : State := { s with flc := { s.flc with nodes := u.flc.nodes } }
                let entering :=
                  { s.hatch h with
                      active := {}, latched := {}, history := {}, lastResume := some (.auto, (s.hatch h).history) }
                let w := if (s.stepRec h o n).attended then s.window h else .stopped
                now.EntryBarred u h entering o n w ∧
                ((∀ k, k ≠ h → s.image.boundNode k x.node = true → (s.hatch k).state = .held →
                    (s.hatch k).active.nodeFault = false) →
                  now.StepEntered u h entering o n w s.fa.queue s.fa.units)))) ∧
        (∀ e, q = .outputs e → u.node x.node = after ∧ u.signals = s.signals) ∧
        (ended.saturated = false → after.saturated = true → u.flag .alertSat = true) ∧
        (let ok := fun (c : Chan) (sent v : Nat) =>
           match (s.image.chan x.node c).kind with
           | .binary => v = sent
           | .proportional => v ≤ sent + s.image.global.readbackTolerance ∧
               sent ≤ v + s.image.global.readbackTolerance
         (∀ e p, q = .outputs e → x.requester = .part → s.image.global.readbackEnable = true → p ∈ x.sent →
           (∀ y, e.find? (fun y => y.1 = p.1) = some y → ¬ ok p.1 p.2 y.2) →
           u.flag .readbackMismatch = true ∧
           ∀ h, s.image.readbackTo h x.node p.1 = true → (s.hatch h).state ≠ .idle →
             (u.hatch h).state = .tripped ∧ (u.hatch h).trips.readback = true ∧
             ((s.hatch h).state = .manual → s.Neutralised u h)) ∧
         (∀ e, q = .outputs e →
           (x.requester ≠ .part ∨ s.image.global.readbackEnable = false ∨
             ∀ p ∈ x.sent, ∃ y, e.find? (fun y => y.1 = p.1) = some y ∧ ok p.1 p.2 y.2) →
           u.flag .readbackMismatch = s.flag .readbackMismatch ∧ u.hatches = s.hatches)))

/-- The scan and the refresh (R145, R147): a node whose scan timer expires becomes due, and stays due once; at the expiry
of a node's refresh timer every OWNED channel is marked dirty when one of them is not neutral, nothing else is marked,
and the timer restarts. That the scan timer restarts at its own expiry is the model's reading (log entry 18). -/
def Obligations.ScanAndRefreshTimersMarkTheNode : Prop :=
  ∀ (s : State) (n : Node),
    ((s.flc.scan.read n).left ≠ none →
      exec (.scanTimerExpiry n) s = .next
        { s with flc := { s.flc with
            scan := s.flc.scan.put n { due := true, left := some s.image.global.scanPeriod } } }) ∧
    (∃ t, exec (.refreshTimerExpiry n) s = .next t ∧
      t.oir.refreshLeft = s.oir.refreshLeft.put n s.image.global.outputRefresh ∧
      { t with oir := s.oir } = s ∧
      (∀ m ch, m ≠ n ∨ (s.image.chan n ch).cls ≠ .owned → t.outChan m ch = s.outChan m ch) ∧
      ((∃ ch, (s.image.chan n ch).cls = .owned ∧ (s.outChan n ch).value ≠ s.image.neutralOf n ch) →
        ∀ ch, (s.image.chan n ch).cls = .owned → t.outChan n ch = { s.outChan n ch with dirty := true }) ∧
      ((∀ ch, (s.image.chan n ch).cls = .owned → (s.outChan n ch).value = s.image.neutralOf n ch) →
        t.oir.image = s.oir.image))
/-! ### The sensor image and the conditions -/

/-- A sample of a COUNT or VALUE signal is accepted at once (R21); a sample of a SWITCH that is not FRESH is accepted
without debounce (R23); every sample leaves the signal FRESH with age 0, and raises an update event exactly when the value
or the quality differs from the one before. A FRESH SWITCH is debounced (R22): an agreeing sample ends the run;
disagreeing samples change the value exactly at the k-th in a row, and until then the run count is their number and the
candidate the sample. -/
def Obligations.SamplesAreAcceptedAndDebounced : Prop :=
  (∀ (x : SignalState) (r : SignalRec) (input : Word16),
     (r.kind = .value →
       x.sample r input = { value := input.toInt, quality := .fresh, age := 0, candidate := none, run := 0 }) ∧
     (r.kind = .count →
       x.sample r input =
         { value := if 32767 < input.toNat then 32767 else input.toNat, quality := .fresh, age := 0,
           candidate := none, run := 0 }) ∧
     (r.kind = .switch → x.quality ≠ .fresh →
       x.sample r input =
         { value := if input = 0 then 0 else 1, quality := .fresh, age := 0, candidate := none, run := 0 }) ∧
     (x.sample r input).quality = .fresh ∧ (x.sample r input).age = 0 ∧
     ∀ (s : State) (n : Node) (values : List Word16) (i : SignalId),
       i ∈ changedSignals s.signals (s.sampled n values).signals ↔
         ((s.sampled n values).signal i).value ≠ (s.signal i).value ∨
           ((s.sampled n values).signal i).quality ≠ (s.signal i).quality) ∧
  (∀ (x : SignalState) (r : SignalRec) (inputs : List Word16) (v : Int), r.kind = .switch → x.quality = .fresh →
     1 ≤ r.debounce → x.run = 0 → x.candidate = none → (x.value = 0 ∨ x.value = 1) → v = 1 - x.value →
     (∀ w ∈ inputs, SignalKind.switch.reading w = v) → inputs ≠ [] →
     (inputs.length < r.debounce →
       inputs.foldl (fun x w => x.sample r w) x =
         { value := x.value, quality := .fresh, age := 0, candidate := some (v != 0), run := inputs.length }) ∧
     (inputs.length = r.debounce →
       inputs.foldl (fun x w => x.sample r w) x =
         { value := v, quality := .fresh, age := 0, candidate := none, run := 0 }) ∧
     ∀ w, inputs.length < r.debounce → SignalKind.switch.reading w = x.value →
       (inputs.foldl (fun x w => x.sample r w) x).sample r w =
         { value := x.value, quality := .fresh, age := 0, candidate := none, run := 0 })

/-- The update events of a READ_INPUTS reply decide the step of a hatch in motion one of whose current sets reads a
changed signal, and its drives (R28, R50, Table 3-4), as `State.UpdatesDecide` says of any event: a failing trip set
(R86), a failing hold set (R74, R77), the done set (R73, R75, R76), CONDITION of a HELD hatch and its resumption (R78,
R81), the ends of travel (R118) and the targets (R117), the withdrawn outputs (R77, R82), a STOPPING drive at its end
and the stop that ends with it (R120, R83, R84), and the COMPLETED, STOPPED, PENDING_STARTED and PENDING_DISCARDED
notices (R92). The phase, the resumption and the drives of a hatch that goes on are stated of a reply that changes no
pump's running signal, so that A stays; the admission after an entry of a hatch alone in motion. The notices' bytes
that the record gives are those after the event by log entry 14, and the console of a request that starts by log entry
15, the state that PENDING_STARTED carries left open. That a drive that ends has its paused mark cleared is log entry
45, and that a console's reply is offered as the last frame of the event is log entry 16. -/
def Obligations.UpdateEventsDecideTheStep : Prop :=
  ∀ (s : State) (run : Run) (x : Transaction) (f : Frame) (v : List Word16) (h : Hatch) (r : StepRec),
    s.matchReply run = some (x, f, .inputs v) → (s.node x.node).state ≠ .absent →
    s.enabled h = true → s.currentStep h = some r →
    ∃ u t, exec (.inputsReply run) s = .next t ∧
      (x.requester = .part → t = u) ∧ (∀ k, x.requester = .console k → t = u.offer (.forwarded f)) ∧
      s.UpdatesDecide u h r

/-- The ages of the signals named run out together (R24, R35): each becomes STALE with its value kept, its age at the
max age and no debounce run; no other signal changes; and A follows when a pump's running signal is among them (R34).
The update events decide the steps as those of a reply do (R28): a RUNNING, HELD or STOPPING hatch whose trip set
reads one of the signals trips, a failing hold set holds, and a drive in motion whose position goes STALE has the
target 0 and is paused (R24, R117). That a drive that ends has its paused mark cleared is log entry 45, and the
notices' bytes are those of log entries 14 and 15. -/
def Obligations.ExpiredSignalsBecomeStale : Prop :=
  ∀ (s : State) (l : List SignalId), l ≠ [] → l.Nodup → (∀ i ∈ l, (s.signal i).quality = .fresh) →
    ∃ t, exec (.signalAgeExpiry l) s = .next t ∧ t.mu.mode = s.mu.mode ∧ t.cp.rx = s.cp.rx ∧ t.sl = s.sl ∧
      (∀ i ∈ l, t.signal i =
        { value := (s.signal i).value, quality := .stale, age := (s.image.signal.read i).maxAge,
          candidate := none, run := 0 }) ∧
      (∀ i, i ∉ l → t.signal i = s.signal i) ∧
      ((∃ p i, (s.image.pump.read p).running = some i ∧ i ∈ l) → t.fa.avail = t.rawFlow - t.image.global.reserve) ∧
      ((∀ p i, (s.image.pump.read p).running = some i → i ∉ l) → t.fa.avail = s.fa.avail) ∧
      (∀ h, s.enabled h = true → (s.hatch h).state = .running → ∀ r, s.currentStep h = some r →
        (∃ x i, x ∈ s.image.setOf r.tripSet ∧ i ∈ l ∧
          (s.image.condition.read x).ref.resolve (s.hatchRec h) = some i) →
        (t.hatch h).state = .tripped ∧ (t.hatch h).trips.tripCondition = true) ∧
      (∀ h r, s.enabled h = true → s.currentStep h = some r → s.UpdatesDecide t h r) ∧
      ∀ h r a i f dir speed stop, s.enabled h = true → s.currentStep h = some r → (s.hatch h).state = .running →
        (s.hatch h).phase = some .acting → t.setHolds h r.tripSet = true → t.setHolds h r.holdSet = true →
        t.setHolds h r.doneSet = false → (∀ p j, (s.image.pump.read p).running = some j → j ∉ l) →
        a ∈ s.propActs h → s.soleDrive h a → (∀ q ∈ s.fa.queue, ∀ y ∈ q.actions, y.1 ≠ a) →
        (s.drive a).state = .inMotion → (s.drive a).direction = some dir → (s.drive a).speed = some speed →
        (s.drive a).stopPosition = some stop → (s.image.actuator.read a).kind = .proportional f →
        (s.hatchRec h).signalOf f.posRole = some i → i ∈ l → t.roleTrue h (f.endRole dir) = false →
        t.roleTrue h .localEstop = false →
        (t.drive a).state = .inMotion ∧ (t.drive a).target = 0 ∧ (t.drive a).paused = true

/-- A condition on a signal that is not FRESH fails, whatever the comparison (R41); on a FRESH one the comparison of
Table 3-2 is made on whole numbers (R42), of the magnitude when the abs flag is set (R43). A set holds when each of its
conditions holds; an empty set, and set 0, always hold (R45, R46). -/
def Obligations.ConditionsCompareFreshValues : Prop :=
  ∀ (s : State) (h : Hatch),
    (∀ c r i, s.image.condition.read c = r → r.ref.resolve (s.hatchRec h) = some i →
      (s.condHolds h c = true ↔
        (s.signal i).quality = .fresh ∧
          let v := if r.abs then |(s.signal i).value| else (s.signal i).value
          match r.cmp with
          | .eq => v = r.low
          | .ne => v ≠ r.low
          | .ge => r.low ≤ v
          | .le => v ≤ r.low
          | .inside => r.low ≤ v ∧ v ≤ r.high
          | .outside => v < r.low ∨ r.high < v)) ∧
    (∀ c, (s.image.condition.read c).ref.resolve (s.hatchRec h) = none → s.condHolds h c = false) ∧
    (∀ i, i ≠ 0 → (s.setHolds h i = true ↔ ∀ c ∈ s.image.condset.read i, s.condHolds h c = true)) ∧
    s.setHolds h 0 = true

/-! ### Timers of the hatches -/

/-- The step timer, which runs in ACTING and SETTLING, trips the hatch with STEP_TIMEOUT at its expiry (R74, R86): its
flow is withdrawn, its drives stand with code 2048, and, where no other hatch waits for flow, its binary channels are
0 and the TRIPPED notice is in the transmit queue, its state that of the record after the trip by log entry 14;
hatches that do not wait for flow are not changed by it. The settle timer, which runs in SETTLING, ends the step
(R75): a final step completes the operation, the hatch IDLE without owner or marker (R76) and the COMPLETED notice
offered (R92), its state and owner those of the record after the step by log entry 14; any other step gives back its
unit and is followed by the entry of the next one (R71), with every outcome of its table, the window by R165. -/
def Obligations.StepTimersTripOrEndTheStep : Prop :=
  (∀ (s : State) (h : Hatch), (s.hatch h).state = .running →
     ((s.hatch h).phase = some .acting ∨ (s.hatch h).phase = some .settling) → (s.hatch h).stepTimer ≠ none →
     ∃ t, exec (.stepTimeout h) s = .next t ∧ t.still = s.still ∧
       t.hatch h =
         { s.hatch h with
             state := .tripped, trips := { stepTimeout := true }, firstTrip := some .stepTimeout, phase := none,
             stepTimer := none, settleTimer := none, active := {}, latched := {}, history := {}, request := none,
             marker := (s.hatch h).here } ∧
       t.window h = .stopped ∧ (∀ x ∈ t.fa.queue, x.hatch ≠ h) ∧ (∀ x ∈ t.fa.units, x.hatch ≠ h) ∧
       (∀ k, k ≠ h → (s.hatch k).waiting = false → t.hatch k = s.hatch k ∧ t.window k = s.window k) ∧
       ((∀ x ∈ s.fa.queue, x.hatch = h) →
         (∀ a ∈ s.propActs h, (t.drive a).state = .atRest ∧ (t.drive a).c = 0 ∧ (t.drive a).code = 2048) ∧
         (∀ a ∈ s.binaryActs h,
           (t.outChan (s.image.actuator.read a).node (s.image.actuator.read a).channel).value = 0) ∧
         (s.cp.tx = [] → t.cp.tx = [.own .notice 0#8 0#8
           [4#8, byte h.number, 5#8, 4#8, optByte ((s.hatch h).here.map (·.1.code)),
             optByte ((s.hatch h).here.map (·.2.val)), byte (s.hatch h).rest.code, 1#8,
             optByte ((s.hatch h).owner.map fun c => 48 + c.val)] false]))) ∧
  (∀ (s : State) (h : Hatch) (o : Op) (n : StepNo), (s.hatch h).state = .running →
     (s.hatch h).phase = some .settling → (s.hatch h).settleTimer ≠ none → (s.hatch h).operation = some o →
     (s.hatch h).step = some n →
     ∃ t, exec (.settleExpiry h) s = .next t ∧ t.still = s.still ∧
       ((s.stepRec h o n).last = true → (∀ x ∈ s.fa.queue, x.hatch ≠ h) →
         t.hatch h =
           { s.hatch h with
               state := .idle, operation := none, step := none, phase := none, owner := none, marker := none,
               request := none, stepTimer := none, settleTimer := none, active := {}, latched := {}, history := {} } ∧
         t.window h = .stopped ∧
         (s.fa.queue = [] → s.cp.tx = [] →
           t.cp.tx = [.own .notice 0#8 0#8
             [4#8, byte h.number, 1#8, 0#8, byte o.code, byte n.val, byte (s.hatch h).rest.code, 0#8, 255#8]
             false])) ∧
       (∀ k, (s.stepRec h o n).last = false → n.val + 1 = k.val →
         s.StepEntered t h (s.hatch h) o k
           (if (s.stepRec h o k).attended = false then .stopped
            else if (s.stepRec h o n).attended then s.window h else .live s.image.global.holdWindow)
           s.fa.queue (s.fa.units.filter fun x => x.hatch != h)))

/-- The expiry of a live hold window (R165): a HELD hatch on an attended step takes HOLD_LAPSE into its sets, a
RUNNING one leaves RUNNING for HELD, the step's binary channels 0 and its drives ramping down or standing (R77, R120;
the paused mark of a drive at rest by log entry 45), or is tripped by its trip set; a MANUAL one stays MANUAL with its
shadows neutral, its GUARDED channels neutral and dirty as R159 gives (one held neutral already is not written, R146),
and its writes removed (R90, R159), a BLOCKED notice with reason HOLD_LAPSED for the one frame removed. The window of
a hatch in one of these situations is LAPSED, or STOPPED by a trip. -/
def Obligations.HoldWindowExpiryHoldsOrNeutralises : Prop :=
  ∀ (s : State) (h : Hatch) (left : Nat), s.window h = .live left →
    ∃ t, exec (.holdWindowExpiry h) s = .next t ∧ t.still = s.still ∧
      (∀ k, k ≠ h → (s.hatch k).waiting = false → t.hatch k = s.hatch k ∧ t.window k = s.window k) ∧
      ((s.hatch h).state = .held → s.onAttended h = true →
        t.window h = .lapsed ∧
        t.hatch h =
          if (s.hatch h).active.holdLapse then s.hatch h
          else
            { s.hatch h with
                active := { (s.hatch h).active with holdLapse := true },
                latched := { (s.hatch h).latched with
                  holdLapse := (s.hatch h).latched.holdLapse || !(s.hatchRec h).resume.holdLapse },
                history := { (s.hatch h).history with holdLapse := true } }) ∧
      (∀ r, (s.hatch h).state = .running → s.currentStep h = some r → r.attended = true →
        (s.setHolds h r.tripSet = true →
          s.OutputsWithdrawn t h r ∧ t.window h = .lapsed ∧ (t.hatch h).state = .held ∧ (t.hatch h).phase = none ∧
          (t.hatch h).active.holdLapse = true ∧ (t.hatch h).history.holdLapse = true ∧
          (t.hatch h).latched.holdLapse = !(s.hatchRec h).resume.holdLapse ∧
          (∀ x ∈ t.fa.queue, x.hatch ≠ h) ∧ ∀ x ∈ t.fa.units, x.hatch ≠ h) ∧
        (s.setHolds h r.tripSet = false → t.window h = .stopped ∧ (t.hatch h).state = .tripped)) ∧
      ((s.hatch h).state = .manual →
        t.window h = .lapsed ∧ t.hatch h = s.hatch h ∧ s.Neutralised t h ∧
        (s.cp.tx = [] → ∀ x, s.BlockedNotice h 4#8 x → t.cp.tx = [x]))

/-! ### Link supervision and the stop logic -/

/-- The expiry of the link window (R166). With LINK_LAPSE clear it is set and the timer restarts: an enabled MANUAL
hatch is neutralised (R159), its GUARDED channels neutral and dirty as R159 gives (one held neutral already is not
written, R146), none of its writes queued and a BLOCKED notice with reason HOLD_LAPSED for the one frame removed, with
its window stopped, a HELD one takes LINK_LAPSE into its sets, a RUNNING one is TRIPPED where its trip set fails, else
HELD with LINK_LAPSE, and with CONDITION where its start or hold set fails (R77), its window kept, out of the flow
lists, the step's binary channels 0 and its drives ramping down or standing (R77, R120); motion stays released. With
LINK_LAPSE set a hard stop is taken (R168) and the timer stopped: NEUTRAL is pending, MOTION_EN deasserted, every
output channel neutral and dirty where it changed, every drive at rest (its paused mark by log entry 45), every
enabled hatch in motion or MANUAL TRIPPED with LINK_LOST first, a TRIPPED one takes the cause, an IDLE one is not
changed, and the flow lists are empty. The hard stop's effect on these is stated of a state whose flow lists match the
sequencers and whose binary actuators in use are on channels of their own kind, as the validation requires. -/
def Obligations.LinkWindowExpiryLapsesThenStops : Prop :=
  ∀ (s : State) (left : Nat), s.ls.link = some left →
    ∃ t, exec .linkWindowExpiry s = .next t ∧ t.cp.rx = s.cp.rx ∧ t.mu.mode = s.mu.mode ∧ t.image = s.image ∧
      t.ls.lapse = true ∧
      (s.ls.lapse = false →
        t.ls.link = (if s.image.global.linkWindow = 0 then none else some s.image.global.linkWindow) ∧
        t.motionEn = s.motionEn ∧ t.flc.neutralPending = s.flc.neutralPending ∧
        ∀ h, s.enabled h = true →
          ((s.hatch h).state = .manual →
            t.hatch h = s.hatch h ∧ t.window h = .stopped ∧ s.Neutralised t h ∧
            ((∀ k, k ≠ h → (s.hatch k).state ≠ .running ∧ (s.hatch k).state ≠ .manual) → s.cp.tx = [] →
              ∀ x, s.BlockedNotice h 4#8 x → t.cp.tx = [x])) ∧
          ((s.hatch h).state = .held →
            t.hatch h =
              if (s.hatch h).active.linkLapse then s.hatch h
              else
                { s.hatch h with
                    active := { (s.hatch h).active with linkLapse := true },
                    latched := { (s.hatch h).latched with
                      linkLapse := (s.hatch h).latched.linkLapse || !(s.hatchRec h).resume.linkLapse },
                    history := { (s.hatch h).history with linkLapse := true } }) ∧
          ((s.hatch h).state = .running →
            (t.hatch h).state = .tripped ∨ (t.hatch h).state = .held ∧ (t.hatch h).active.linkLapse = true) ∧
          (∀ r, (s.hatch h).state = .running → s.currentStep h = some r →
            (∀ y ∈ t.fa.queue, y.hatch ≠ h) ∧ (∀ y ∈ t.fa.units, y.hatch ≠ h) ∧
            (s.setHolds h r.tripSet = false →
              (t.hatch h).state = .tripped ∧ (t.hatch h).trips = { tripCondition := true } ∧
              (t.hatch h).firstTrip = some .tripCondition ∧ (t.hatch h).marker = (s.hatch h).here ∧
              t.window h = .stopped) ∧
            (s.setHolds h r.tripSet = true →
              let condition := !(s.setHolds h r.startSet && s.setHolds h r.holdSet)
              t.hatch h =
                { s.hatch h with
                    state := .held, phase := none, stepTimer := none, settleTimer := none,
                    active := { linkLapse := true, condition := condition },
                    latched := { linkLapse := !(s.hatchRec h).resume.linkLapse,
                                 condition := condition && !(s.hatchRec h).resume.condition },
                    history := { linkLapse := true, condition := condition } } ∧
              s.OutputsWithdrawn t h r ∧ t.window h = s.window h)) ∧
          ((s.hatch h).state = .idle ∨ (s.hatch h).state = .stopping ∨ (s.hatch h).state = .tripped →
            t.hatch h = s.hatch h)) ∧
      (s.ls.lapse = true →
        t.ls.link = none ∧ t.motionEn = false ∧ t.flc.neutralPending = true ∧
        ∀ h, s.enabled h = true →
          ((s.hatch h).state ≠ .idle → (t.hatch h).state = .tripped ∧ (t.hatch h).trips.linkLost = true) ∧
          ((s.hatch h).state = .idle → t.hatch h = s.hatch h)) ∧
      (s.ls.lapse = true → s.MotionSafe → s.FlowMatched →
        (∀ h, s.enabled h = true → ∀ a ∈ s.binaryActs h,
          s.image.neutralOf (s.image.actuator.read a).node (s.image.actuator.read a).channel = 0) →
        t.fa.queue = [] ∧ t.fa.units = [] ∧ (∀ a, t.drive a = {}) ∧
        (∀ n ch, (t.outChan n ch).value = s.image.neutralOf n ch ∧
          ((s.outChan n ch).value ≠ s.image.neutralOf n ch → (t.outChan n ch).dirty = true)) ∧
        (∀ h,
          ((s.hatch h).state = .idle → t.hatch h = s.hatch h) ∧
          ((s.hatch h).state = .tripped →
            t.hatch h = { s.hatch h with trips := { (s.hatch h).trips with linkLost := true } }) ∧
          ((s.hatch h).state.atRest = false →
            (t.hatch h).state = .tripped ∧ (t.hatch h).trips = { linkLost := true } ∧
            (t.hatch h).firstTrip = some .linkLost ∧ t.window h = .stopped ∧
            ((s.hatch h).state = .manual → s.Neutralised t h) ∧
            (t.hatch h).owner = (s.hatch h).owner)) ∧
        t.signals = s.signals)

/-- ESTOP_IN and its debounce (R167): a change of the level breaks the run in progress and starts the run of the other
direction, 5 ms of active from RELEASED or 50 ms of inactive from ACTIVE; a level already held changes nothing; the
end of the release run makes the state RELEASED and asserts nothing. The change to ACTIVE is a hard stop (R168):
NEUTRAL is pending, MOTION_EN deasserted, every output channel neutral and dirty where it changed, every drive at rest
with code 2048, every enabled hatch in motion or MANUAL TRIPPED with ESTOP_INPUT first, a TRIPPED one takes the cause,
an IDLE one is not changed, a MANUAL one is neutralised (R159), the flow lists are empty, and ESTOP_ACTIVE is set. The
hard stop is stated of a state whose flow lists match the sequencers and whose binary actuators in use are on channels
of their own kind, as the validation requires. That a drive at rest has its paused mark cleared is log entry 45. -/
def Obligations.EstopInputIsDebouncedAndStopsHard : Prop :=
  (∀ s : State,
     (∀ level, ∃ t, exec (.estopInChange level) s = .next t ∧ { t with sl := s.sl } = s ∧
       (s.sl.pinActive = level → t = s) ∧
       (s.sl.pinActive ≠ level →
         t.sl = { s.sl with
                   pinActive := level,
                   run := match s.sl.estop, level with
                     | .released, true => some 5
                     | .active, false => some 50
                     | .released, false | .active, true => none })) ∧
     (s.sl.estop = .active → s.sl.pinActive = false → s.sl.run ≠ none →
       exec .estopDebounceReleased s = .next { s with sl := { s.sl with estop := .released, run := none } })) ∧
  (∀ s : State, s.sl.estop = .released → s.sl.pinActive = true → s.sl.run ≠ none →
     s.MotionSafe → s.FlowMatched →
     (∀ h, s.enabled h = true → ∀ a ∈ s.binaryActs h,
       s.image.neutralOf (s.image.actuator.read a).node (s.image.actuator.read a).channel = 0) →
     ∃ t, exec .estopDebounceActive s = .next t ∧
       t.flc.neutralPending = true ∧ t.motionEn = false ∧ t.sl.estop = .active ∧ t.flag .estopActive = true ∧
       t.fa.queue = [] ∧ t.fa.units = [] ∧ (∀ a, t.drive a = {}) ∧
       (∀ n ch, (t.outChan n ch).value = s.image.neutralOf n ch ∧
         ((s.outChan n ch).value ≠ s.image.neutralOf n ch → (t.outChan n ch).dirty = true)) ∧
       (∀ h,
         ((s.hatch h).state = .idle → t.hatch h = s.hatch h) ∧
         ((s.hatch h).state = .tripped →
           t.hatch h = { s.hatch h with trips := { (s.hatch h).trips with estopInput := true } }) ∧
         ((s.hatch h).state.atRest = false →
           (t.hatch h).state = .tripped ∧ (t.hatch h).trips = { estopInput := true } ∧
           (t.hatch h).firstTrip = some .estopInput ∧ t.window h = .stopped ∧
           ((s.hatch h).state = .manual → s.Neutralised t h) ∧
           (t.hatch h).owner = (s.hatch h).owner)) ∧
       t.mu.mode = s.mu.mode ∧ t.cp.rx = s.cp.rx ∧ t.signals = s.signals ∧ t.ls.lapse = s.ls.lapse)

/-! ### Drives and flow -/

/-- The ramp tick (R119, R120): with no stop in progress, each drive that moves goes toward its allocation by one
step, never past it; a STOPPING one toward 0, where it is AT_REST with every item at its reset value (of the paused
mark by log entry 45); the codes follow by R122 and R123; the timer restarts and nothing else changes but the output
image. A hatch in STOPPING stays so while a drive of it has further to go; at the tick that brings its last drive to 0
the stop ends (R83): the hatch is IDLE with the marker at its step and the STOPPED notice is offered, with the state
IDLE and the owner 0xFF of the record after the stop by log entry 14, and a request in its slot is discarded with
PENDING_DISCARDED, its bytes those of log entry 14, while MOTION_EN is deasserted or LINK_LAPSE set, or else started
with PENDING_STARTED (R84, R92; log entry 15), the starting step chosen from the marker and entered by R71. Beside it,
the drive that a hold or a stop withdraws (R120): that PAUSE, the windows, STOP and the opposite request leave a drive
so is said of those commands. -/
def Obligations.RampTickMovesEveryDrive : Prop :=
  (∀ s : State, ∃ t, exec .rampTick s = .next t ∧ t.dru.tickLeft = s.image.global.rampTick ∧ t.still.mu = s.still.mu ∧
    t.cp.rx = s.cp.rx ∧
    (∀ h, (s.hatch h).state ≠ .stopping → (s.hatch h).waiting = false →
      t.hatch h = s.hatch h ∧ t.window h = s.window h) ∧
    ((∀ h, (s.hatch h).state ≠ .stopping) →
      t.mu = s.mu ∧ t.cp = s.cp ∧ t.hatches = s.hatches ∧ t.fa = s.fa ∧ t.ls = s.ls ∧ t.sl = s.sl ∧ t.flc = s.flc ∧
      t.signals = s.signals ∧ t.shadows = s.shadows ∧
      ∀ a, let d := s.drive a
        (d.state = .atRest → t.drive a = d) ∧
        (∀ f, (s.image.actuator.read a).kind = .proportional f →
          (d.state = .inMotion →
            let c := if d.c < d.alloc then min (d.c + f.upStep) d.alloc
              else if d.alloc < d.c then max (d.c - f.downStep) d.alloc else d.c
            (c = d.c → t.drive a = d) ∧
            (c ≠ d.c → t.drive a =
              { d with c := c, code := valveCode f d.direction c, saturated := clamps f c })) ∧
          (d.state = .stopping →
            (d.c ≤ f.downStep → t.drive a = {}) ∧
            (f.downStep < d.c → t.drive a =
              { d with
                  c := d.c - f.downStep, code := valveCode f d.direction (d.c - f.downStep),
                  saturated := clamps f (d.c - f.downStep) })))) ∧
    ∀ h, (s.hatch h).state = .stopping →
      let r := s.hatch h
      let goesOn := fun (a : ActId) => (s.drive a).state = .stopping ∧
        ∃ f, (s.image.actuator.read a).kind = .proportional f ∧ f.downStep < (s.drive a).c
      let stands := fun (a : ActId) => (s.drive a).state = .atRest ∧ (s.drive a).c = 0 ∨
        (s.drive a).state = .stopping ∧
          ∃ f, (s.image.actuator.read a).kind = .proportional f ∧ (s.drive a).c ≤ f.downStep
      let alone : Prop := ∀ k, k ≠ h → (s.hatch k).state ≠ .stopping
      let event := fun (occasion detail : Nat) (m : Option (Op × StepNo)) (state owner : Byte) =>
        TxEntry.own .notice 0#8 0#8
          [4#8, byte h.number, byte occasion, state, optByte (m.map (·.1.code)), optByte (m.map (·.2.val)),
            byte r.rest.code, byte detail, owner] false
      ((∃ a ∈ s.propActs h, goesOn a) → t.hatch h = r ∧ t.window h = s.window h) ∧
      ((∀ a ∈ s.propActs h, stands a) →
        (r.request = none ∨ s.motionEn = false ∨ s.ls.lapse = true →
          t.hatch h =
            { r with
                state := .idle, operation := none, step := none, phase := none, request := none, owner := none,
                active := {}, latched := {}, history := {}, stepTimer := none, settleTimer := none,
                marker := r.here } ∧
          t.window h = .stopped ∧
          (alone → s.cp.tx = [] →
            t.cp.tx = event 2 0 r.here 0#8 255#8 ::
              if r.request = none then [] else [event 4 (if s.motionEn = false then 11 else 9) none 0#8 255#8])) ∧
        (∀ o c m n, r.request = some (o, c) → s.motionEn = true → s.ls.lapse = false → alone →
          r.operation = some m → r.step = some n →
          let k := if m = o then (s.stepRec h m n).reentry.getD n else (s.stepRec h m n).reverse.getD 0
          (s.fa.queue = [] → s.cp.tx = [] →
            ∃ state, event 2 0 r.here 0#8 255#8 ∈ t.cp.tx ∧
              event 3 0 (some (o, k)) state (byte (48 + c.val)) ∈ t.cp.tx) ∧
          s.StepEntered t h
            { r with
                owner := some c, request := none, marker := some (m, n), active := {}, latched := {},
                history := {} } o k
            (if (s.stepRec h o k).attended then .live s.image.global.holdWindow else .stopped)
            s.fa.queue s.fa.units))) ∧
  ∀ d : Drive,
    (d.state = .inMotion → 0 < d.c →
      d.withdrawn = { d with state := .stopping, alloc := 0, target := 0, paused := false }) ∧
    (d.state = .inMotion → d.c = 0 → d.withdrawn = {}) ∧ (d.state ≠ .inMotion → d.withdrawn = d)

/-- The target of an action in motion (R115 to R117, R104): 0 and paused when its position is not FRESH; else the
speed brought into the actuator's range, the smaller of it and the creep flow within the creep distance, and the
larger of the minimum and half of it downhill or with the heel not FRESH; it lies between the minimum and the maximum
flow. The valve code (R122, R123): 2048 at a commanded flow of 0, else the deadband plus floor(c × K ÷ 256) on the
side of the direction, clamped to the max span, with the saturation mark set exactly while the clamp acts; a code that
differs from the one held is placed in the output image, dirty (R124). -/
def Obligations.TargetAndValveCodeOfADrive : Prop :=
  (∀ (f : PropFields) (c : Nat),
     valveCode f (some .outward) 0 = 2048 ∧ valveCode f (some .inward) 0 = 2048 ∧ clamps f 0 = false ∧
     (0 < c → f.deadband + c * f.gain / 256 ≤ f.maxSpan →
       valveCode f (some .outward) c = 2048 + (f.deadband + c * f.gain / 256) ∧
       valveCode f (some .inward) c = 2048 - (f.deadband + c * f.gain / 256) ∧ clamps f c = false) ∧
     (0 < c → f.maxSpan < f.deadband + c * f.gain / 256 →
       valveCode f (some .outward) c = 2048 + f.maxSpan ∧ valveCode f (some .inward) c = 2048 - f.maxSpan ∧
       clamps f c = true) ∧
     (f.maxSpan ≤ 2047 → ∀ d, 1 ≤ valveCode f d c ∧ valveCode f d c ≤ 4095) ∧
     ∀ (s : State) (a : ActId) (d : Drive),
       let r := s.image.actuator.read a
       (s.placeDrive a d).drive a = d ∧
       (d.code = (s.drive a).code → (s.placeDrive a d).oir = s.oir) ∧
       (d.code ≠ (s.drive a).code →
         (s.placeDrive a d).outChan r.node r.channel =
           if (s.outChan r.node r.channel).value = d.code then s.outChan r.node r.channel
           else { value := d.code, dirty := true })) ∧
  ∀ (f : PropFields) (side : Side) (d : Direction) (speed : Nat) (stop : Int) (position heel : Option Int) (soft : Nat),
    f.minFlow ≤ f.creepFlow → f.creepFlow ≤ f.maxFlow →
    (position = none → targetOf f side d speed stop position heel soft = 0) ∧
    ∀ p, position = some p →
      let ranged : Nat := if f.maxFlow < speed then f.maxFlow else if speed < f.minFlow then f.minFlow else speed
      let distance : Int := match d with
        | .outward => stop - p
        | .inward => p - stop
      let crept : Nat := if 0 < f.creepDistance ∧ distance ≤ (f.creepDistance : Int) then min ranged f.creepFlow else ranged
      let down : Prop := match heel with
        | none => True
        | some v =>
          ((side = .port ∧ d = .outward ∨ side = .stbd ∧ d = .inward) ∧ v < -(soft : Int)) ∨
            ((side = .port ∧ d = .inward ∨ side = .stbd ∧ d = .outward) ∧ (soft : Int) < v)
      (down → targetOf f side d speed stop position heel soft = max f.minFlow (crept / 2)) ∧
      (¬ down → targetOf f side d speed stop position heel soft = crept) ∧
      f.minFlow ≤ targetOf f side d speed stop position heel soft ∧
      targetOf f side d speed stop position heel soft ≤ f.maxFlow

/-- The allocations (R105, R106): each paused action receives 0; when the targets fit, each other action receives its
target; else its minimum and its share of what lies above the minima, rounded down. With minima that fit and targets of
at least the minima, every allocation lies between minimum and target, and B plus all of them stays within A. -/
def Obligations.AllocationsShareTheFlow : Prop :=
  ∀ (avail demand : Nat) (l : List Share), demand + (l.map (·.m)).sum ≤ avail →
    (∀ x ∈ l, x.paused = false → x.m ≤ x.t) →
    let running := l.filter fun x => !x.paused
    let P := avail - demand - ((l.filter (·.paused)).map (·.m)).sum
    let T := (running.map (·.t)).sum
    let S := (running.map (·.m)).sum
    (allocations avail demand l).map (·.1) = l.map (·.act) ∧
    demand + ((allocations avail demand l).map (·.2)).sum ≤ avail ∧
    ∀ x ∈ l,
      ∃ a, (x.act, a) ∈ allocations avail demand l ∧
        (x.paused = true → a = 0) ∧
        (x.paused = false →
          x.m ≤ a ∧ a ≤ x.t ∧ (T ≤ P → a = x.t) ∧
          (P < T → a = x.m + (x.t - x.m) * (P - S) / (T - S)))

/-- Admission is strictly first in, first out (R98, R99, R110): a pass takes a run of requests from the head of the
queue to the tail of the admission list, each fitting at its turn, and stops at the first head that does not fit;
while A is 0 it takes none. A change of A then sheds units from the last admitted, and only until the list fits, all
of them when A is 0; the shed steps stand at the head of the queue in their order of admission (R107, R108). A shed
step's hatch returns to FLOW_WAIT with its timers discarded, its drives in motion at rest and its binary channels
neutral (R72, R108); a shed reservation ends its session, the hatch IDLE without an owner, neutralised (R159), its
GUARDED channels neutral and dirty as R159 gives (one held neutral already is not written, R146), with a BLOCKED
notice of reason NOT_MANUAL for the one frame removed and a MANUAL_ENDED notice naming the former owner (R90, R109);
no other hatch is changed. That a pass takes every request that fits before it hands over the first is log entry 32,
and that a drive at rest has its paused mark cleared log entry 45. -/
def Obligations.FlowIsTakenAndGivenBackInOrder : Prop :=
  (∀ f : FlowAllocator,
    let r := f.admitAll f.queue.length
    ∃ admitted rest, f.queue = admitted ++ rest ∧ r.1 = admitted.map (·.hatch) ∧
      r.2 = { f with queue := rest, units := f.units ++ admitted.map fun q => FlowUnit.step q q.actions } ∧
      (f.avail = 0 → admitted = []) ∧
      (f.demand + f.minimum ≤ f.avail → r.2.demand + r.2.minimum ≤ f.avail) ∧
      (∀ q more, rest = q :: more →
        f.avail = 0 ∨
          f.avail < r.2.demand + r.2.minimum + q.dStep + q.mStep ∧ (q.dStep ≠ 0 ∨ q.mStep ≠ 0))) ∧
  ∀ e : Ev,
    let f := e.st.fa
    let e' := e.shed f.units.length
    let g := e'.st.fa
    ∃ kept shed, f.units = kept ++ shed ∧ g.units = kept ∧ g.avail = f.avail ∧
      g.queue = (shed.filterMap fun u => match u with
        | .step r _ => some r
        | .manual _ _ => none) ++ f.queue ∧
      (f.avail = 0 → kept = []) ∧ g.demand + g.minimum ≤ f.avail ∧
      (∀ u more, shed = u :: more → f.avail = 0 ∨
        f.avail < ((kept ++ [u]).map FlowUnit.binary).sum + minSum ((kept ++ [u]).flatMap FlowUnit.inMotion)) ∧
      (shed ≠ [] → e'.passDue = true) ∧
      (∀ q l, FlowUnit.step q l ∈ shed → (e.st.hatch q.hatch).admitted = true →
        e'.st.hatch q.hatch =
          { e.st.hatch q.hatch with phase := some .flowWait, stepTimer := none, settleTimer := none } ∧
        e'.st.window q.hatch = e.st.window q.hatch ∧
        (∀ a ∈ e.st.propActs q.hatch, (e.st.drive a).state = .inMotion → e'.st.drive a = {}) ∧
        ∀ r, e.st.currentStep q.hatch = some r → ∀ p ∈ e.st.stepBinary q.hatch r,
          e.st.soleChannel q.hatch p.1 → e'.st.actValue p.1 = 0) ∧
      (∀ h v, FlowUnit.manual h v ∈ shed → (e.st.hatch h).state = .manual →
        e'.st.hatch h =
          { e.st.hatch h with
              state := .idle, operation := none, step := none, phase := none, request := none, owner := none,
              active := {}, latched := {}, history := {}, stepTimer := none, settleTimer := none } ∧
        e'.st.window h = .stopped ∧
        e.st.Neutralised e'.st h ∧
        ((∀ k w, FlowUnit.manual k w ∈ shed → k = h) → ∀ y, e.st.BlockedNotice h 2#8 y → (h, y) ∈ e'.notices) ∧
        (h, TxEntry.own .notice 0#8 0#8
          [5#8, byte h.number, byte (((e.st.hatch h).owner.map fun c => 48 + c.val).getD 255)] false) ∈ e'.notices) ∧
      ∀ h, (∀ y ∈ shed, y.hatch ≠ h) → e'.st.hatch h = e.st.hatch h ∧ e'.st.window h = e.st.window h
end

