-- ==== Sys2Proof/Laws/State.lean ====
section
/-! SUPPORT. Updates of the state: one lemma per field that an update leaves alone, and what the updated field reads as. -/

namespace Sys2Proof.Machine

/-! `State.setHatch` -/
@[simp] theorem State.setHatch_mu (s : State) (h : Hatch) (r : HatchStatus) : (s.setHatch h r).mu = s.mu := rfl
@[simp] theorem State.setHatch_cp (s : State) (h : Hatch) (r : HatchStatus) : (s.setHatch h r).cp = s.cp := rfl
@[simp] theorem State.setHatch_sl (s : State) (h : Hatch) (r : HatchStatus) : (s.setHatch h r).sl = s.sl := rfl
@[simp] theorem State.setHatch_ls (s : State) (h : Hatch) (r : HatchStatus) : (s.setHatch h r).ls = s.ls := rfl
@[simp] theorem State.setHatch_signals (s : State) (h : Hatch) (r : HatchStatus) : (s.setHatch h r).signals = s.signals := rfl
@[simp] theorem State.setHatch_fa (s : State) (h : Hatch) (r : HatchStatus) : (s.setHatch h r).fa = s.fa := rfl
@[simp] theorem State.setHatch_dru (s : State) (h : Hatch) (r : HatchStatus) : (s.setHatch h r).dru = s.dru := rfl
@[simp] theorem State.setHatch_oir (s : State) (h : Hatch) (r : HatchStatus) : (s.setHatch h r).oir = s.oir := rfl
@[simp] theorem State.setHatch_flc (s : State) (h : Hatch) (r : HatchStatus) : (s.setHatch h r).flc = s.flc := rfl
@[simp] theorem State.setHatch_shadows (s : State) (h : Hatch) (r : HatchStatus) : (s.setHatch h r).shadows = s.shadows := rfl
@[simp] theorem State.setHatch_freeCount (s : State) (h : Hatch) (r : HatchStatus) : (s.setHatch h r).freeCount = s.freeCount := rfl
@[simp] theorem State.setHatch_pending (s : State) (h : Hatch) (r : HatchStatus) : (s.setHatch h r).pending = s.pending := rfl

/-! `State.modHatch` -/
@[simp] theorem State.modHatch_mu (s : State) (h : Hatch) (f : HatchStatus → HatchStatus) : (s.modHatch h f).mu = s.mu := rfl
@[simp] theorem State.modHatch_cp (s : State) (h : Hatch) (f : HatchStatus → HatchStatus) : (s.modHatch h f).cp = s.cp := rfl
@[simp] theorem State.modHatch_sl (s : State) (h : Hatch) (f : HatchStatus → HatchStatus) : (s.modHatch h f).sl = s.sl := rfl
@[simp] theorem State.modHatch_ls (s : State) (h : Hatch) (f : HatchStatus → HatchStatus) : (s.modHatch h f).ls = s.ls := rfl
@[simp] theorem State.modHatch_signals (s : State) (h : Hatch) (f : HatchStatus → HatchStatus) : (s.modHatch h f).signals = s.signals := rfl
@[simp] theorem State.modHatch_fa (s : State) (h : Hatch) (f : HatchStatus → HatchStatus) : (s.modHatch h f).fa = s.fa := rfl
@[simp] theorem State.modHatch_dru (s : State) (h : Hatch) (f : HatchStatus → HatchStatus) : (s.modHatch h f).dru = s.dru := rfl
@[simp] theorem State.modHatch_oir (s : State) (h : Hatch) (f : HatchStatus → HatchStatus) : (s.modHatch h f).oir = s.oir := rfl
@[simp] theorem State.modHatch_flc (s : State) (h : Hatch) (f : HatchStatus → HatchStatus) : (s.modHatch h f).flc = s.flc := rfl
@[simp] theorem State.modHatch_shadows (s : State) (h : Hatch) (f : HatchStatus → HatchStatus) : (s.modHatch h f).shadows = s.shadows := rfl
@[simp] theorem State.modHatch_freeCount (s : State) (h : Hatch) (f : HatchStatus → HatchStatus) : (s.modHatch h f).freeCount = s.freeCount := rfl
@[simp] theorem State.modHatch_pending (s : State) (h : Hatch) (f : HatchStatus → HatchStatus) : (s.modHatch h f).pending = s.pending := rfl

/-! `State.setWindow` -/
@[simp] theorem State.setWindow_mu (s : State) (h : Hatch) (w : Window) : (s.setWindow h w).mu = s.mu := rfl
@[simp] theorem State.setWindow_cp (s : State) (h : Hatch) (w : Window) : (s.setWindow h w).cp = s.cp := rfl
@[simp] theorem State.setWindow_sl (s : State) (h : Hatch) (w : Window) : (s.setWindow h w).sl = s.sl := rfl
@[simp] theorem State.setWindow_signals (s : State) (h : Hatch) (w : Window) : (s.setWindow h w).signals = s.signals := rfl
@[simp] theorem State.setWindow_hatches (s : State) (h : Hatch) (w : Window) : (s.setWindow h w).hatches = s.hatches := rfl
@[simp] theorem State.setWindow_fa (s : State) (h : Hatch) (w : Window) : (s.setWindow h w).fa = s.fa := rfl
@[simp] theorem State.setWindow_dru (s : State) (h : Hatch) (w : Window) : (s.setWindow h w).dru = s.dru := rfl
@[simp] theorem State.setWindow_oir (s : State) (h : Hatch) (w : Window) : (s.setWindow h w).oir = s.oir := rfl
@[simp] theorem State.setWindow_flc (s : State) (h : Hatch) (w : Window) : (s.setWindow h w).flc = s.flc := rfl
@[simp] theorem State.setWindow_shadows (s : State) (h : Hatch) (w : Window) : (s.setWindow h w).shadows = s.shadows := rfl
@[simp] theorem State.setWindow_freeCount (s : State) (h : Hatch) (w : Window) : (s.setWindow h w).freeCount = s.freeCount := rfl
@[simp] theorem State.setWindow_pending (s : State) (h : Hatch) (w : Window) : (s.setWindow h w).pending = s.pending := rfl

/-! `State.startWindow` -/
@[simp] theorem State.startWindow_mu (s : State) (h : Hatch) : (s.startWindow h).mu = s.mu := rfl
@[simp] theorem State.startWindow_cp (s : State) (h : Hatch) : (s.startWindow h).cp = s.cp := rfl
@[simp] theorem State.startWindow_sl (s : State) (h : Hatch) : (s.startWindow h).sl = s.sl := rfl
@[simp] theorem State.startWindow_signals (s : State) (h : Hatch) : (s.startWindow h).signals = s.signals := rfl
@[simp] theorem State.startWindow_hatches (s : State) (h : Hatch) : (s.startWindow h).hatches = s.hatches := rfl
@[simp] theorem State.startWindow_fa (s : State) (h : Hatch) : (s.startWindow h).fa = s.fa := rfl
@[simp] theorem State.startWindow_dru (s : State) (h : Hatch) : (s.startWindow h).dru = s.dru := rfl
@[simp] theorem State.startWindow_oir (s : State) (h : Hatch) : (s.startWindow h).oir = s.oir := rfl
@[simp] theorem State.startWindow_flc (s : State) (h : Hatch) : (s.startWindow h).flc = s.flc := rfl
@[simp] theorem State.startWindow_shadows (s : State) (h : Hatch) : (s.startWindow h).shadows = s.shadows := rfl
@[simp] theorem State.startWindow_freeCount (s : State) (h : Hatch) : (s.startWindow h).freeCount = s.freeCount := rfl
@[simp] theorem State.startWindow_pending (s : State) (h : Hatch) : (s.startWindow h).pending = s.pending := rfl

/-! `State.setDrive` -/
@[simp] theorem State.setDrive_mu (s : State) (a : ActId) (d : Drive) : (s.setDrive a d).mu = s.mu := rfl
@[simp] theorem State.setDrive_cp (s : State) (a : ActId) (d : Drive) : (s.setDrive a d).cp = s.cp := rfl
@[simp] theorem State.setDrive_sl (s : State) (a : ActId) (d : Drive) : (s.setDrive a d).sl = s.sl := rfl
@[simp] theorem State.setDrive_ls (s : State) (a : ActId) (d : Drive) : (s.setDrive a d).ls = s.ls := rfl
@[simp] theorem State.setDrive_signals (s : State) (a : ActId) (d : Drive) : (s.setDrive a d).signals = s.signals := rfl
@[simp] theorem State.setDrive_hatches (s : State) (a : ActId) (d : Drive) : (s.setDrive a d).hatches = s.hatches := rfl
@[simp] theorem State.setDrive_fa (s : State) (a : ActId) (d : Drive) : (s.setDrive a d).fa = s.fa := rfl
@[simp] theorem State.setDrive_oir (s : State) (a : ActId) (d : Drive) : (s.setDrive a d).oir = s.oir := rfl
@[simp] theorem State.setDrive_flc (s : State) (a : ActId) (d : Drive) : (s.setDrive a d).flc = s.flc := rfl
@[simp] theorem State.setDrive_shadows (s : State) (a : ActId) (d : Drive) : (s.setDrive a d).shadows = s.shadows := rfl
@[simp] theorem State.setDrive_freeCount (s : State) (a : ActId) (d : Drive) : (s.setDrive a d).freeCount = s.freeCount := rfl
@[simp] theorem State.setDrive_pending (s : State) (a : ActId) (d : Drive) : (s.setDrive a d).pending = s.pending := rfl

/-! `State.setAlloc` -/
@[simp] theorem State.setAlloc_mu (s : State) (p : ActId × Nat) : (s.setAlloc p).mu = s.mu := rfl
@[simp] theorem State.setAlloc_cp (s : State) (p : ActId × Nat) : (s.setAlloc p).cp = s.cp := rfl
@[simp] theorem State.setAlloc_sl (s : State) (p : ActId × Nat) : (s.setAlloc p).sl = s.sl := rfl
@[simp] theorem State.setAlloc_ls (s : State) (p : ActId × Nat) : (s.setAlloc p).ls = s.ls := rfl
@[simp] theorem State.setAlloc_signals (s : State) (p : ActId × Nat) : (s.setAlloc p).signals = s.signals := rfl
@[simp] theorem State.setAlloc_hatches (s : State) (p : ActId × Nat) : (s.setAlloc p).hatches = s.hatches := rfl
@[simp] theorem State.setAlloc_fa (s : State) (p : ActId × Nat) : (s.setAlloc p).fa = s.fa := rfl
@[simp] theorem State.setAlloc_oir (s : State) (p : ActId × Nat) : (s.setAlloc p).oir = s.oir := rfl
@[simp] theorem State.setAlloc_flc (s : State) (p : ActId × Nat) : (s.setAlloc p).flc = s.flc := rfl
@[simp] theorem State.setAlloc_shadows (s : State) (p : ActId × Nat) : (s.setAlloc p).shadows = s.shadows := rfl
@[simp] theorem State.setAlloc_freeCount (s : State) (p : ActId × Nat) : (s.setAlloc p).freeCount = s.freeCount := rfl
@[simp] theorem State.setAlloc_pending (s : State) (p : ActId × Nat) : (s.setAlloc p).pending = s.pending := rfl

/-! `State.setNode` -/
@[simp] theorem State.setNode_mu (s : State) (n : Node) (r : NodeRecord) : (s.setNode n r).mu = s.mu := rfl
@[simp] theorem State.setNode_cp (s : State) (n : Node) (r : NodeRecord) : (s.setNode n r).cp = s.cp := rfl
@[simp] theorem State.setNode_sl (s : State) (n : Node) (r : NodeRecord) : (s.setNode n r).sl = s.sl := rfl
@[simp] theorem State.setNode_ls (s : State) (n : Node) (r : NodeRecord) : (s.setNode n r).ls = s.ls := rfl
@[simp] theorem State.setNode_signals (s : State) (n : Node) (r : NodeRecord) : (s.setNode n r).signals = s.signals := rfl
@[simp] theorem State.setNode_hatches (s : State) (n : Node) (r : NodeRecord) : (s.setNode n r).hatches = s.hatches := rfl
@[simp] theorem State.setNode_fa (s : State) (n : Node) (r : NodeRecord) : (s.setNode n r).fa = s.fa := rfl
@[simp] theorem State.setNode_dru (s : State) (n : Node) (r : NodeRecord) : (s.setNode n r).dru = s.dru := rfl
@[simp] theorem State.setNode_oir (s : State) (n : Node) (r : NodeRecord) : (s.setNode n r).oir = s.oir := rfl
@[simp] theorem State.setNode_shadows (s : State) (n : Node) (r : NodeRecord) : (s.setNode n r).shadows = s.shadows := rfl
@[simp] theorem State.setNode_freeCount (s : State) (n : Node) (r : NodeRecord) : (s.setNode n r).freeCount = s.freeCount := rfl
@[simp] theorem State.setNode_pending (s : State) (n : Node) (r : NodeRecord) : (s.setNode n r).pending = s.pending := rfl

/-! `State.setOutChan` -/
@[simp] theorem State.setOutChan_mu (s : State) (n : Node) (c : Chan) (o : OutChan) : (s.setOutChan n c o).mu = s.mu := rfl
@[simp] theorem State.setOutChan_cp (s : State) (n : Node) (c : Chan) (o : OutChan) : (s.setOutChan n c o).cp = s.cp := rfl
@[simp] theorem State.setOutChan_sl (s : State) (n : Node) (c : Chan) (o : OutChan) : (s.setOutChan n c o).sl = s.sl := rfl
@[simp] theorem State.setOutChan_ls (s : State) (n : Node) (c : Chan) (o : OutChan) : (s.setOutChan n c o).ls = s.ls := rfl
@[simp] theorem State.setOutChan_signals (s : State) (n : Node) (c : Chan) (o : OutChan) : (s.setOutChan n c o).signals = s.signals := rfl
@[simp] theorem State.setOutChan_hatches (s : State) (n : Node) (c : Chan) (o : OutChan) : (s.setOutChan n c o).hatches = s.hatches := rfl
@[simp] theorem State.setOutChan_fa (s : State) (n : Node) (c : Chan) (o : OutChan) : (s.setOutChan n c o).fa = s.fa := rfl
@[simp] theorem State.setOutChan_dru (s : State) (n : Node) (c : Chan) (o : OutChan) : (s.setOutChan n c o).dru = s.dru := rfl
@[simp] theorem State.setOutChan_flc (s : State) (n : Node) (c : Chan) (o : OutChan) : (s.setOutChan n c o).flc = s.flc := rfl
@[simp] theorem State.setOutChan_shadows (s : State) (n : Node) (c : Chan) (o : OutChan) : (s.setOutChan n c o).shadows = s.shadows := rfl
@[simp] theorem State.setOutChan_freeCount (s : State) (n : Node) (c : Chan) (o : OutChan) : (s.setOutChan n c o).freeCount = s.freeCount := rfl
@[simp] theorem State.setOutChan_pending (s : State) (n : Node) (c : Chan) (o : OutChan) : (s.setOutChan n c o).pending = s.pending := rfl

/-! `State.setShadow` -/
@[simp] theorem State.setShadow_mu (s : State) (n : Node) (c : Chan) (v : Nat) : (s.setShadow n c v).mu = s.mu := rfl
@[simp] theorem State.setShadow_cp (s : State) (n : Node) (c : Chan) (v : Nat) : (s.setShadow n c v).cp = s.cp := rfl
@[simp] theorem State.setShadow_sl (s : State) (n : Node) (c : Chan) (v : Nat) : (s.setShadow n c v).sl = s.sl := rfl
@[simp] theorem State.setShadow_ls (s : State) (n : Node) (c : Chan) (v : Nat) : (s.setShadow n c v).ls = s.ls := rfl
@[simp] theorem State.setShadow_signals (s : State) (n : Node) (c : Chan) (v : Nat) : (s.setShadow n c v).signals = s.signals := rfl
@[simp] theorem State.setShadow_hatches (s : State) (n : Node) (c : Chan) (v : Nat) : (s.setShadow n c v).hatches = s.hatches := rfl
@[simp] theorem State.setShadow_fa (s : State) (n : Node) (c : Chan) (v : Nat) : (s.setShadow n c v).fa = s.fa := rfl
@[simp] theorem State.setShadow_dru (s : State) (n : Node) (c : Chan) (v : Nat) : (s.setShadow n c v).dru = s.dru := rfl
@[simp] theorem State.setShadow_oir (s : State) (n : Node) (c : Chan) (v : Nat) : (s.setShadow n c v).oir = s.oir := rfl
@[simp] theorem State.setShadow_flc (s : State) (n : Node) (c : Chan) (v : Nat) : (s.setShadow n c v).flc = s.flc := rfl
@[simp] theorem State.setShadow_freeCount (s : State) (n : Node) (c : Chan) (v : Nat) : (s.setShadow n c v).freeCount = s.freeCount := rfl
@[simp] theorem State.setShadow_pending (s : State) (n : Node) (c : Chan) (v : Nat) : (s.setShadow n c v).pending = s.pending := rfl

/-! `State.setFlag` -/
@[simp] theorem State.setFlag_cp (s : State) (f : Flag) : (s.setFlag f).cp = s.cp := rfl
@[simp] theorem State.setFlag_sl (s : State) (f : Flag) : (s.setFlag f).sl = s.sl := rfl
@[simp] theorem State.setFlag_ls (s : State) (f : Flag) : (s.setFlag f).ls = s.ls := rfl
@[simp] theorem State.setFlag_signals (s : State) (f : Flag) : (s.setFlag f).signals = s.signals := rfl
@[simp] theorem State.setFlag_hatches (s : State) (f : Flag) : (s.setFlag f).hatches = s.hatches := rfl
@[simp] theorem State.setFlag_fa (s : State) (f : Flag) : (s.setFlag f).fa = s.fa := rfl
@[simp] theorem State.setFlag_dru (s : State) (f : Flag) : (s.setFlag f).dru = s.dru := rfl
@[simp] theorem State.setFlag_oir (s : State) (f : Flag) : (s.setFlag f).oir = s.oir := rfl
@[simp] theorem State.setFlag_flc (s : State) (f : Flag) : (s.setFlag f).flc = s.flc := rfl
@[simp] theorem State.setFlag_shadows (s : State) (f : Flag) : (s.setFlag f).shadows = s.shadows := rfl
@[simp] theorem State.setFlag_freeCount (s : State) (f : Flag) : (s.setFlag f).freeCount = s.freeCount := rfl
@[simp] theorem State.setFlag_pending (s : State) (f : Flag) : (s.setFlag f).pending = s.pending := rfl

/-! `State.modFa` -/
@[simp] theorem State.modFa_mu (s : State) (f : FlowAllocator → FlowAllocator) : (s.modFa f).mu = s.mu := rfl
@[simp] theorem State.modFa_cp (s : State) (f : FlowAllocator → FlowAllocator) : (s.modFa f).cp = s.cp := rfl
@[simp] theorem State.modFa_sl (s : State) (f : FlowAllocator → FlowAllocator) : (s.modFa f).sl = s.sl := rfl
@[simp] theorem State.modFa_ls (s : State) (f : FlowAllocator → FlowAllocator) : (s.modFa f).ls = s.ls := rfl
@[simp] theorem State.modFa_signals (s : State) (f : FlowAllocator → FlowAllocator) : (s.modFa f).signals = s.signals := rfl
@[simp] theorem State.modFa_hatches (s : State) (f : FlowAllocator → FlowAllocator) : (s.modFa f).hatches = s.hatches := rfl
@[simp] theorem State.modFa_dru (s : State) (f : FlowAllocator → FlowAllocator) : (s.modFa f).dru = s.dru := rfl
@[simp] theorem State.modFa_oir (s : State) (f : FlowAllocator → FlowAllocator) : (s.modFa f).oir = s.oir := rfl
@[simp] theorem State.modFa_flc (s : State) (f : FlowAllocator → FlowAllocator) : (s.modFa f).flc = s.flc := rfl
@[simp] theorem State.modFa_shadows (s : State) (f : FlowAllocator → FlowAllocator) : (s.modFa f).shadows = s.shadows := rfl
@[simp] theorem State.modFa_freeCount (s : State) (f : FlowAllocator → FlowAllocator) : (s.modFa f).freeCount = s.freeCount := rfl
@[simp] theorem State.modFa_pending (s : State) (f : FlowAllocator → FlowAllocator) : (s.modFa f).pending = s.pending := rfl

/-! `State.modFlc` -/
@[simp] theorem State.modFlc_mu (s : State) (f : FieldLine → FieldLine) : (s.modFlc f).mu = s.mu := rfl
@[simp] theorem State.modFlc_cp (s : State) (f : FieldLine → FieldLine) : (s.modFlc f).cp = s.cp := rfl
@[simp] theorem State.modFlc_sl (s : State) (f : FieldLine → FieldLine) : (s.modFlc f).sl = s.sl := rfl
@[simp] theorem State.modFlc_ls (s : State) (f : FieldLine → FieldLine) : (s.modFlc f).ls = s.ls := rfl
@[simp] theorem State.modFlc_signals (s : State) (f : FieldLine → FieldLine) : (s.modFlc f).signals = s.signals := rfl
@[simp] theorem State.modFlc_hatches (s : State) (f : FieldLine → FieldLine) : (s.modFlc f).hatches = s.hatches := rfl
@[simp] theorem State.modFlc_fa (s : State) (f : FieldLine → FieldLine) : (s.modFlc f).fa = s.fa := rfl
@[simp] theorem State.modFlc_dru (s : State) (f : FieldLine → FieldLine) : (s.modFlc f).dru = s.dru := rfl
@[simp] theorem State.modFlc_oir (s : State) (f : FieldLine → FieldLine) : (s.modFlc f).oir = s.oir := rfl
@[simp] theorem State.modFlc_shadows (s : State) (f : FieldLine → FieldLine) : (s.modFlc f).shadows = s.shadows := rfl
@[simp] theorem State.modFlc_freeCount (s : State) (f : FieldLine → FieldLine) : (s.modFlc f).freeCount = s.freeCount := rfl
@[simp] theorem State.modFlc_pending (s : State) (f : FieldLine → FieldLine) : (s.modFlc f).pending = s.pending := rfl

/-! `State.dropHead` -/
@[simp] theorem State.dropHead_mu (s : State) : (s.dropHead).mu = s.mu := rfl
@[simp] theorem State.dropHead_sl (s : State) : (s.dropHead).sl = s.sl := rfl
@[simp] theorem State.dropHead_ls (s : State) : (s.dropHead).ls = s.ls := rfl
@[simp] theorem State.dropHead_signals (s : State) : (s.dropHead).signals = s.signals := rfl
@[simp] theorem State.dropHead_hatches (s : State) : (s.dropHead).hatches = s.hatches := rfl
@[simp] theorem State.dropHead_fa (s : State) : (s.dropHead).fa = s.fa := rfl
@[simp] theorem State.dropHead_dru (s : State) : (s.dropHead).dru = s.dru := rfl
@[simp] theorem State.dropHead_oir (s : State) : (s.dropHead).oir = s.oir := rfl
@[simp] theorem State.dropHead_flc (s : State) : (s.dropHead).flc = s.flc := rfl
@[simp] theorem State.dropHead_shadows (s : State) : (s.dropHead).shadows = s.shadows := rfl
@[simp] theorem State.dropHead_freeCount (s : State) : (s.dropHead).freeCount = s.freeCount := rfl
@[simp] theorem State.dropHead_pending (s : State) : (s.dropHead).pending = s.pending := rfl

/-! `State.forward` -/
@[simp] theorem State.forward_mu (s : State) (f : Frame) : (s.forward f).mu = s.mu := rfl
@[simp] theorem State.forward_cp (s : State) (f : Frame) : (s.forward f).cp = s.cp := rfl
@[simp] theorem State.forward_sl (s : State) (f : Frame) : (s.forward f).sl = s.sl := rfl
@[simp] theorem State.forward_ls (s : State) (f : Frame) : (s.forward f).ls = s.ls := rfl
@[simp] theorem State.forward_signals (s : State) (f : Frame) : (s.forward f).signals = s.signals := rfl
@[simp] theorem State.forward_hatches (s : State) (f : Frame) : (s.forward f).hatches = s.hatches := rfl
@[simp] theorem State.forward_fa (s : State) (f : Frame) : (s.forward f).fa = s.fa := rfl
@[simp] theorem State.forward_dru (s : State) (f : Frame) : (s.forward f).dru = s.dru := rfl
@[simp] theorem State.forward_oir (s : State) (f : Frame) : (s.forward f).oir = s.oir := rfl
@[simp] theorem State.forward_shadows (s : State) (f : Frame) : (s.forward f).shadows = s.shadows := rfl
@[simp] theorem State.forward_freeCount (s : State) (f : Frame) : (s.forward f).freeCount = s.freeCount := rfl
@[simp] theorem State.forward_pending (s : State) (f : Frame) : (s.forward f).pending = s.pending := rfl

/-! `State.startLink` -/
@[simp] theorem State.startLink_mu (s : State) : (s.startLink).mu = s.mu := rfl
@[simp] theorem State.startLink_cp (s : State) : (s.startLink).cp = s.cp := rfl
@[simp] theorem State.startLink_sl (s : State) : (s.startLink).sl = s.sl := rfl
@[simp] theorem State.startLink_signals (s : State) : (s.startLink).signals = s.signals := rfl
@[simp] theorem State.startLink_hatches (s : State) : (s.startLink).hatches = s.hatches := rfl
@[simp] theorem State.startLink_fa (s : State) : (s.startLink).fa = s.fa := rfl
@[simp] theorem State.startLink_dru (s : State) : (s.startLink).dru = s.dru := rfl
@[simp] theorem State.startLink_oir (s : State) : (s.startLink).oir = s.oir := rfl
@[simp] theorem State.startLink_flc (s : State) : (s.startLink).flc = s.flc := rfl
@[simp] theorem State.startLink_shadows (s : State) : (s.startLink).shadows = s.shadows := rfl
@[simp] theorem State.startLink_freeCount (s : State) : (s.startLink).freeCount = s.freeCount := rfl
@[simp] theorem State.startLink_pending (s : State) : (s.startLink).pending = s.pending := rfl

/-! `State.stopLink` -/
@[simp] theorem State.stopLink_mu (s : State) : (s.stopLink).mu = s.mu := rfl
@[simp] theorem State.stopLink_cp (s : State) : (s.stopLink).cp = s.cp := rfl
@[simp] theorem State.stopLink_sl (s : State) : (s.stopLink).sl = s.sl := rfl
@[simp] theorem State.stopLink_signals (s : State) : (s.stopLink).signals = s.signals := rfl
@[simp] theorem State.stopLink_hatches (s : State) : (s.stopLink).hatches = s.hatches := rfl
@[simp] theorem State.stopLink_fa (s : State) : (s.stopLink).fa = s.fa := rfl
@[simp] theorem State.stopLink_dru (s : State) : (s.stopLink).dru = s.dru := rfl
@[simp] theorem State.stopLink_oir (s : State) : (s.stopLink).oir = s.oir := rfl
@[simp] theorem State.stopLink_flc (s : State) : (s.stopLink).flc = s.flc := rfl
@[simp] theorem State.stopLink_shadows (s : State) : (s.stopLink).shadows = s.shadows := rfl
@[simp] theorem State.stopLink_freeCount (s : State) : (s.stopLink).freeCount = s.freeCount := rfl
@[simp] theorem State.stopLink_pending (s : State) : (s.stopLink).pending = s.pending := rfl

/-! `State.allAtRest` -/
@[simp] theorem State.allAtRest_mu (s : State) : (s.allAtRest).mu = s.mu := rfl
@[simp] theorem State.allAtRest_cp (s : State) : (s.allAtRest).cp = s.cp := rfl
@[simp] theorem State.allAtRest_sl (s : State) : (s.allAtRest).sl = s.sl := rfl
@[simp] theorem State.allAtRest_ls (s : State) : (s.allAtRest).ls = s.ls := rfl
@[simp] theorem State.allAtRest_signals (s : State) : (s.allAtRest).signals = s.signals := rfl
@[simp] theorem State.allAtRest_hatches (s : State) : (s.allAtRest).hatches = s.hatches := rfl
@[simp] theorem State.allAtRest_fa (s : State) : (s.allAtRest).fa = s.fa := rfl
@[simp] theorem State.allAtRest_oir (s : State) : (s.allAtRest).oir = s.oir := rfl
@[simp] theorem State.allAtRest_flc (s : State) : (s.allAtRest).flc = s.flc := rfl
@[simp] theorem State.allAtRest_shadows (s : State) : (s.allAtRest).shadows = s.shadows := rfl
@[simp] theorem State.allAtRest_freeCount (s : State) : (s.allAtRest).freeCount = s.freeCount := rfl
@[simp] theorem State.allAtRest_pending (s : State) : (s.allAtRest).pending = s.pending := rfl

/-! `State.allNeutral` -/
@[simp] theorem State.allNeutral_mu (s : State) : (s.allNeutral).mu = s.mu := rfl
@[simp] theorem State.allNeutral_cp (s : State) : (s.allNeutral).cp = s.cp := rfl
@[simp] theorem State.allNeutral_sl (s : State) : (s.allNeutral).sl = s.sl := rfl
@[simp] theorem State.allNeutral_ls (s : State) : (s.allNeutral).ls = s.ls := rfl
@[simp] theorem State.allNeutral_signals (s : State) : (s.allNeutral).signals = s.signals := rfl
@[simp] theorem State.allNeutral_hatches (s : State) : (s.allNeutral).hatches = s.hatches := rfl
@[simp] theorem State.allNeutral_fa (s : State) : (s.allNeutral).fa = s.fa := rfl
@[simp] theorem State.allNeutral_dru (s : State) : (s.allNeutral).dru = s.dru := rfl
@[simp] theorem State.allNeutral_flc (s : State) : (s.allNeutral).flc = s.flc := rfl
@[simp] theorem State.allNeutral_shadows (s : State) : (s.allNeutral).shadows = s.shadows := rfl
@[simp] theorem State.allNeutral_freeCount (s : State) : (s.allNeutral).freeCount = s.freeCount := rfl
@[simp] theorem State.allNeutral_pending (s : State) : (s.allNeutral).pending = s.pending := rfl

/-! `State.invalidated` -/
@[simp] theorem State.invalidated_mu (s : State) (n : Node) : (s.invalidated n).mu = s.mu := rfl
@[simp] theorem State.invalidated_cp (s : State) (n : Node) : (s.invalidated n).cp = s.cp := rfl
@[simp] theorem State.invalidated_sl (s : State) (n : Node) : (s.invalidated n).sl = s.sl := rfl
@[simp] theorem State.invalidated_ls (s : State) (n : Node) : (s.invalidated n).ls = s.ls := rfl
@[simp] theorem State.invalidated_hatches (s : State) (n : Node) : (s.invalidated n).hatches = s.hatches := rfl
@[simp] theorem State.invalidated_fa (s : State) (n : Node) : (s.invalidated n).fa = s.fa := rfl
@[simp] theorem State.invalidated_dru (s : State) (n : Node) : (s.invalidated n).dru = s.dru := rfl
@[simp] theorem State.invalidated_oir (s : State) (n : Node) : (s.invalidated n).oir = s.oir := rfl
@[simp] theorem State.invalidated_flc (s : State) (n : Node) : (s.invalidated n).flc = s.flc := rfl
@[simp] theorem State.invalidated_shadows (s : State) (n : Node) : (s.invalidated n).shadows = s.shadows := rfl
@[simp] theorem State.invalidated_freeCount (s : State) (n : Node) : (s.invalidated n).freeCount = s.freeCount := rfl
@[simp] theorem State.invalidated_pending (s : State) (n : Node) : (s.invalidated n).pending = s.pending := rfl

/-! `State.sampled` -/
@[simp] theorem State.sampled_mu (s : State) (n : Node) (l : List Word16) : (s.sampled n l).mu = s.mu := rfl
@[simp] theorem State.sampled_cp (s : State) (n : Node) (l : List Word16) : (s.sampled n l).cp = s.cp := rfl
@[simp] theorem State.sampled_sl (s : State) (n : Node) (l : List Word16) : (s.sampled n l).sl = s.sl := rfl
@[simp] theorem State.sampled_ls (s : State) (n : Node) (l : List Word16) : (s.sampled n l).ls = s.ls := rfl
@[simp] theorem State.sampled_hatches (s : State) (n : Node) (l : List Word16) : (s.sampled n l).hatches = s.hatches := rfl
@[simp] theorem State.sampled_fa (s : State) (n : Node) (l : List Word16) : (s.sampled n l).fa = s.fa := rfl
@[simp] theorem State.sampled_dru (s : State) (n : Node) (l : List Word16) : (s.sampled n l).dru = s.dru := rfl
@[simp] theorem State.sampled_oir (s : State) (n : Node) (l : List Word16) : (s.sampled n l).oir = s.oir := rfl
@[simp] theorem State.sampled_flc (s : State) (n : Node) (l : List Word16) : (s.sampled n l).flc = s.flc := rfl
@[simp] theorem State.sampled_shadows (s : State) (n : Node) (l : List Word16) : (s.sampled n l).shadows = s.shadows := rfl
@[simp] theorem State.sampled_freeCount (s : State) (n : Node) (l : List Word16) : (s.sampled n l).freeCount = s.freeCount := rfl
@[simp] theorem State.sampled_pending (s : State) (n : Node) (l : List Word16) : (s.sampled n l).pending = s.pending := rfl

/-! `State.resetSignal` -/
@[simp] theorem State.resetSignal_mu (s : State) (i : SignalId) : (s.resetSignal i).mu = s.mu := rfl
@[simp] theorem State.resetSignal_cp (s : State) (i : SignalId) : (s.resetSignal i).cp = s.cp := rfl
@[simp] theorem State.resetSignal_sl (s : State) (i : SignalId) : (s.resetSignal i).sl = s.sl := rfl
@[simp] theorem State.resetSignal_ls (s : State) (i : SignalId) : (s.resetSignal i).ls = s.ls := rfl
@[simp] theorem State.resetSignal_hatches (s : State) (i : SignalId) : (s.resetSignal i).hatches = s.hatches := rfl
@[simp] theorem State.resetSignal_fa (s : State) (i : SignalId) : (s.resetSignal i).fa = s.fa := rfl
@[simp] theorem State.resetSignal_dru (s : State) (i : SignalId) : (s.resetSignal i).dru = s.dru := rfl
@[simp] theorem State.resetSignal_oir (s : State) (i : SignalId) : (s.resetSignal i).oir = s.oir := rfl
@[simp] theorem State.resetSignal_flc (s : State) (i : SignalId) : (s.resetSignal i).flc = s.flc := rfl
@[simp] theorem State.resetSignal_shadows (s : State) (i : SignalId) : (s.resetSignal i).shadows = s.shadows := rfl
@[simp] theorem State.resetSignal_freeCount (s : State) (i : SignalId) : (s.resetSignal i).freeCount = s.freeCount := rfl
@[simp] theorem State.resetSignal_pending (s : State) (i : SignalId) : (s.resetSignal i).pending = s.pending := rfl

/-! `State.setWorking` -/
@[simp] theorem State.setWorking_cp (s : State) (im : TableImage) : (s.setWorking im).cp = s.cp := rfl
@[simp] theorem State.setWorking_sl (s : State) (im : TableImage) : (s.setWorking im).sl = s.sl := rfl
@[simp] theorem State.setWorking_ls (s : State) (im : TableImage) : (s.setWorking im).ls = s.ls := rfl
@[simp] theorem State.setWorking_signals (s : State) (im : TableImage) : (s.setWorking im).signals = s.signals := rfl
@[simp] theorem State.setWorking_hatches (s : State) (im : TableImage) : (s.setWorking im).hatches = s.hatches := rfl
@[simp] theorem State.setWorking_fa (s : State) (im : TableImage) : (s.setWorking im).fa = s.fa := rfl
@[simp] theorem State.setWorking_dru (s : State) (im : TableImage) : (s.setWorking im).dru = s.dru := rfl
@[simp] theorem State.setWorking_oir (s : State) (im : TableImage) : (s.setWorking im).oir = s.oir := rfl
@[simp] theorem State.setWorking_flc (s : State) (im : TableImage) : (s.setWorking im).flc = s.flc := rfl
@[simp] theorem State.setWorking_shadows (s : State) (im : TableImage) : (s.setWorking im).shadows = s.shadows := rfl
@[simp] theorem State.setWorking_freeCount (s : State) (im : TableImage) : (s.setWorking im).freeCount = s.freeCount := rfl
@[simp] theorem State.setWorking_pending (s : State) (im : TableImage) : (s.setWorking im).pending = s.pending := rfl

/-! `State.enterConfig` -/
@[simp] theorem State.enterConfig_cp (s : State) : (s.enterConfig).cp = s.cp := rfl
@[simp] theorem State.enterConfig_ls (s : State) : (s.enterConfig).ls = s.ls := rfl
@[simp] theorem State.enterConfig_signals (s : State) : (s.enterConfig).signals = s.signals := rfl
@[simp] theorem State.enterConfig_hatches (s : State) : (s.enterConfig).hatches = s.hatches := rfl
@[simp] theorem State.enterConfig_fa (s : State) : (s.enterConfig).fa = s.fa := rfl
@[simp] theorem State.enterConfig_dru (s : State) : (s.enterConfig).dru = s.dru := rfl
@[simp] theorem State.enterConfig_oir (s : State) : (s.enterConfig).oir = s.oir := rfl
@[simp] theorem State.enterConfig_flc (s : State) : (s.enterConfig).flc = s.flc := rfl
@[simp] theorem State.enterConfig_shadows (s : State) : (s.enterConfig).shadows = s.shadows := rfl
@[simp] theorem State.enterConfig_freeCount (s : State) : (s.enterConfig).freeCount = s.freeCount := rfl
@[simp] theorem State.enterConfig_pending (s : State) : (s.enterConfig).pending = s.pending := rfl

/-! `State.leaveConfig` -/
@[simp] theorem State.leaveConfig_cp (s : State) : (s.leaveConfig).cp = s.cp := rfl
@[simp] theorem State.leaveConfig_sl (s : State) : (s.leaveConfig).sl = s.sl := rfl
@[simp] theorem State.leaveConfig_ls (s : State) : (s.leaveConfig).ls = s.ls := rfl
@[simp] theorem State.leaveConfig_signals (s : State) : (s.leaveConfig).signals = s.signals := rfl
@[simp] theorem State.leaveConfig_hatches (s : State) : (s.leaveConfig).hatches = s.hatches := rfl
@[simp] theorem State.leaveConfig_fa (s : State) : (s.leaveConfig).fa = s.fa := rfl
@[simp] theorem State.leaveConfig_dru (s : State) : (s.leaveConfig).dru = s.dru := rfl
@[simp] theorem State.leaveConfig_oir (s : State) : (s.leaveConfig).oir = s.oir := rfl
@[simp] theorem State.leaveConfig_flc (s : State) : (s.leaveConfig).flc = s.flc := rfl
@[simp] theorem State.leaveConfig_shadows (s : State) : (s.leaveConfig).shadows = s.shadows := rfl
@[simp] theorem State.leaveConfig_freeCount (s : State) : (s.leaveConfig).freeCount = s.freeCount := rfl
@[simp] theorem State.leaveConfig_pending (s : State) : (s.leaveConfig).pending = s.pending := rfl

/-! `State.startTimeout` -/
@[simp] theorem State.startTimeout_mu (s : State) (t : Transaction) : (s.startTimeout t).mu = s.mu := rfl
@[simp] theorem State.startTimeout_cp (s : State) (t : Transaction) : (s.startTimeout t).cp = s.cp := rfl
@[simp] theorem State.startTimeout_sl (s : State) (t : Transaction) : (s.startTimeout t).sl = s.sl := rfl
@[simp] theorem State.startTimeout_ls (s : State) (t : Transaction) : (s.startTimeout t).ls = s.ls := rfl
@[simp] theorem State.startTimeout_signals (s : State) (t : Transaction) : (s.startTimeout t).signals = s.signals := rfl
@[simp] theorem State.startTimeout_hatches (s : State) (t : Transaction) : (s.startTimeout t).hatches = s.hatches := rfl
@[simp] theorem State.startTimeout_fa (s : State) (t : Transaction) : (s.startTimeout t).fa = s.fa := rfl
@[simp] theorem State.startTimeout_dru (s : State) (t : Transaction) : (s.startTimeout t).dru = s.dru := rfl
@[simp] theorem State.startTimeout_oir (s : State) (t : Transaction) : (s.startTimeout t).oir = s.oir := rfl
@[simp] theorem State.startTimeout_shadows (s : State) (t : Transaction) : (s.startTimeout t).shadows = s.shadows := rfl
@[simp] theorem State.startTimeout_freeCount (s : State) (t : Transaction) : (s.startTimeout t).freeCount = s.freeCount := rfl
@[simp] theorem State.startTimeout_pending (s : State) (t : Transaction) : (s.startTimeout t).pending = s.pending := rfl

/-! `State.restartRefresh` -/
@[simp] theorem State.restartRefresh_mu (s : State) (n : Node) : (s.restartRefresh n).mu = s.mu := rfl
@[simp] theorem State.restartRefresh_cp (s : State) (n : Node) : (s.restartRefresh n).cp = s.cp := rfl
@[simp] theorem State.restartRefresh_sl (s : State) (n : Node) : (s.restartRefresh n).sl = s.sl := rfl
@[simp] theorem State.restartRefresh_ls (s : State) (n : Node) : (s.restartRefresh n).ls = s.ls := rfl
@[simp] theorem State.restartRefresh_signals (s : State) (n : Node) : (s.restartRefresh n).signals = s.signals := rfl
@[simp] theorem State.restartRefresh_hatches (s : State) (n : Node) : (s.restartRefresh n).hatches = s.hatches := rfl
@[simp] theorem State.restartRefresh_fa (s : State) (n : Node) : (s.restartRefresh n).fa = s.fa := rfl
@[simp] theorem State.restartRefresh_dru (s : State) (n : Node) : (s.restartRefresh n).dru = s.dru := rfl
@[simp] theorem State.restartRefresh_flc (s : State) (n : Node) : (s.restartRefresh n).flc = s.flc := rfl
@[simp] theorem State.restartRefresh_shadows (s : State) (n : Node) : (s.restartRefresh n).shadows = s.shadows := rfl
@[simp] theorem State.restartRefresh_freeCount (s : State) (n : Node) : (s.restartRefresh n).freeCount = s.freeCount := rfl
@[simp] theorem State.restartRefresh_pending (s : State) (n : Node) : (s.restartRefresh n).pending = s.pending := rfl

/-! `State.restartTick` -/
@[simp] theorem State.restartTick_mu (s : State) : (s.restartTick).mu = s.mu := rfl
@[simp] theorem State.restartTick_cp (s : State) : (s.restartTick).cp = s.cp := rfl
@[simp] theorem State.restartTick_sl (s : State) : (s.restartTick).sl = s.sl := rfl
@[simp] theorem State.restartTick_ls (s : State) : (s.restartTick).ls = s.ls := rfl
@[simp] theorem State.restartTick_signals (s : State) : (s.restartTick).signals = s.signals := rfl
@[simp] theorem State.restartTick_hatches (s : State) : (s.restartTick).hatches = s.hatches := rfl
@[simp] theorem State.restartTick_fa (s : State) : (s.restartTick).fa = s.fa := rfl
@[simp] theorem State.restartTick_oir (s : State) : (s.restartTick).oir = s.oir := rfl
@[simp] theorem State.restartTick_flc (s : State) : (s.restartTick).flc = s.flc := rfl
@[simp] theorem State.restartTick_shadows (s : State) : (s.restartTick).shadows = s.shadows := rfl
@[simp] theorem State.restartTick_freeCount (s : State) : (s.restartTick).freeCount = s.freeCount := rfl
@[simp] theorem State.restartTick_pending (s : State) : (s.restartTick).pending = s.pending := rfl

/-! `State.estopOn` -/
@[simp] theorem State.estopOn_mu (s : State) : (s.estopOn).mu = s.mu := rfl
@[simp] theorem State.estopOn_cp (s : State) : (s.estopOn).cp = s.cp := rfl
@[simp] theorem State.estopOn_ls (s : State) : (s.estopOn).ls = s.ls := rfl
@[simp] theorem State.estopOn_signals (s : State) : (s.estopOn).signals = s.signals := rfl
@[simp] theorem State.estopOn_hatches (s : State) : (s.estopOn).hatches = s.hatches := rfl
@[simp] theorem State.estopOn_fa (s : State) : (s.estopOn).fa = s.fa := rfl
@[simp] theorem State.estopOn_dru (s : State) : (s.estopOn).dru = s.dru := rfl
@[simp] theorem State.estopOn_oir (s : State) : (s.estopOn).oir = s.oir := rfl
@[simp] theorem State.estopOn_flc (s : State) : (s.estopOn).flc = s.flc := rfl
@[simp] theorem State.estopOn_shadows (s : State) : (s.estopOn).shadows = s.shadows := rfl
@[simp] theorem State.estopOn_freeCount (s : State) : (s.estopOn).freeCount = s.freeCount := rfl
@[simp] theorem State.estopOn_pending (s : State) : (s.estopOn).pending = s.pending := rfl

/-! `State.clearDirty` -/
@[simp] theorem State.clearDirty_mu (s : State) (n : Node) : (s.clearDirty n).mu = s.mu := rfl
@[simp] theorem State.clearDirty_cp (s : State) (n : Node) : (s.clearDirty n).cp = s.cp := rfl
@[simp] theorem State.clearDirty_sl (s : State) (n : Node) : (s.clearDirty n).sl = s.sl := rfl
@[simp] theorem State.clearDirty_ls (s : State) (n : Node) : (s.clearDirty n).ls = s.ls := rfl
@[simp] theorem State.clearDirty_signals (s : State) (n : Node) : (s.clearDirty n).signals = s.signals := rfl
@[simp] theorem State.clearDirty_hatches (s : State) (n : Node) : (s.clearDirty n).hatches = s.hatches := rfl
@[simp] theorem State.clearDirty_fa (s : State) (n : Node) : (s.clearDirty n).fa = s.fa := rfl
@[simp] theorem State.clearDirty_dru (s : State) (n : Node) : (s.clearDirty n).dru = s.dru := rfl
@[simp] theorem State.clearDirty_flc (s : State) (n : Node) : (s.clearDirty n).flc = s.flc := rfl
@[simp] theorem State.clearDirty_shadows (s : State) (n : Node) : (s.clearDirty n).shadows = s.shadows := rfl
@[simp] theorem State.clearDirty_freeCount (s : State) (n : Node) : (s.clearDirty n).freeCount = s.freeCount := rfl
@[simp] theorem State.clearDirty_pending (s : State) (n : Node) : (s.clearDirty n).pending = s.pending := rfl

/-! `State.endAllSaturation` -/
@[simp] theorem State.endAllSaturation_mu (s : State) : (s.endAllSaturation).mu = s.mu := rfl
@[simp] theorem State.endAllSaturation_cp (s : State) : (s.endAllSaturation).cp = s.cp := rfl
@[simp] theorem State.endAllSaturation_sl (s : State) : (s.endAllSaturation).sl = s.sl := rfl
@[simp] theorem State.endAllSaturation_ls (s : State) : (s.endAllSaturation).ls = s.ls := rfl
@[simp] theorem State.endAllSaturation_signals (s : State) : (s.endAllSaturation).signals = s.signals := rfl
@[simp] theorem State.endAllSaturation_hatches (s : State) : (s.endAllSaturation).hatches = s.hatches := rfl
@[simp] theorem State.endAllSaturation_fa (s : State) : (s.endAllSaturation).fa = s.fa := rfl
@[simp] theorem State.endAllSaturation_dru (s : State) : (s.endAllSaturation).dru = s.dru := rfl
@[simp] theorem State.endAllSaturation_oir (s : State) : (s.endAllSaturation).oir = s.oir := rfl
@[simp] theorem State.endAllSaturation_shadows (s : State) : (s.endAllSaturation).shadows = s.shadows := rfl
@[simp] theorem State.endAllSaturation_freeCount (s : State) : (s.endAllSaturation).freeCount = s.freeCount := rfl
@[simp] theorem State.endAllSaturation_pending (s : State) : (s.endAllSaturation).pending = s.pending := rfl

end Sys2Proof.Machine
end

