-- ==== Sys2Proof/Laws/Access.lean ====
section
/-! SUPPORT. Reading after writing: tables, hatches, windows, drives, nodes, channels; and where a request joins the flow
queue. -/

namespace Sys2Proof

@[simp] theorem Tab.read_put_same {α : Type} {n : Nat} (t : Tab α n) (i : Fin n) (x : α) : (t.put i x).read i = x := by
  simp [Tab.read, Tab.put]

theorem Tab.read_put_other {α : Type} {n : Nat} (t : Tab α n) {i j : Fin n} (x : α) (h : j ≠ i) :
    (t.put i x).read j = t.read j := by
  simp only [Tab.read, Tab.put]
  exact Vector.getElem_set_ne (hj := j.isLt) i.isLt (fun e => h (Fin.ext e.symm))

@[simp] theorem Tab.read_fill {α : Type} (n : Nat) (x : α) (i : Fin n) : (Tab.fill n x).read i = x := by
  simp [Tab.read, Tab.fill]

@[simp] theorem Tab.read_mapAll {α β : Type} {n : Nat} (f : α → β) (t : Tab α n) (i : Fin n) :
    (t.mapAll f).read i = f (t.read i) := by
  simp [Tab.read, Tab.mapAll]

theorem indexedFrom_getElem {α : Type} {n : Nat} (l : List α) (k : Nat) (h : k + l.length = n) (i : Nat)
    (hi : i < (indexedFrom l k h).length) :
    (indexedFrom l k h)[i] = (⟨k + i, by rw [indexedFrom_length] at hi; omega⟩, l[i]'(by rwa [indexedFrom_length] at hi)) := by
  induction l generalizing k i with
  | nil => simp [indexedFrom] at hi
  | cons a l ih =>
    cases i with
    | zero => simp [indexedFrom]
    | succ i =>
      simp only [indexedFrom, List.getElem_cons_succ]
      rw [ih]
      simp only [Prod.mk.injEq, Fin.mk.injEq, and_true]
      omega

@[simp] theorem Tab.read_mapIdx {α β : Type} {n : Nat} (f : Fin n → α → β) (t : Tab α n) (i : Fin n) :
    (t.mapIdx f).read i = f i (t.read i) := by
  simp [Tab.read, Tab.mapIdx, Tab.entries, indexedFrom_getElem]

/-- Two tables with the same entries are equal. -/
theorem Tab.ext_read {α : Type} {n : Nat} {t u : Tab α n} (h : ∀ i, t.read i = u.read i) : t = u := by
  apply Vector.ext
  intro i hi
  exact h ⟨i, hi⟩

namespace Machine

@[simp] theorem State.hatch_setHatch (s : State) (h : Hatch) (r : HatchStatus) : (s.setHatch h r).hatch h = r := by
  simp [State.hatch, State.setHatch]

theorem State.hatch_setHatch_other (s : State) {h k : Hatch} (r : HatchStatus) (ne : k ≠ h) :
    (s.setHatch h r).hatch k = s.hatch k := Tab.read_put_other _ _ ne

@[simp] theorem State.hatch_modHatch (s : State) (h : Hatch) (f : HatchStatus → HatchStatus) :
    (s.modHatch h f).hatch h = f (s.hatch h) := by simp [State.modHatch]

theorem State.hatch_modHatch_other (s : State) {h k : Hatch} (f : HatchStatus → HatchStatus) (ne : k ≠ h) :
    (s.modHatch h f).hatch k = s.hatch k := State.hatch_setHatch_other s _ ne

@[simp] theorem State.window_setWindow (s : State) (h : Hatch) (w : Window) : (s.setWindow h w).window h = w := by
  simp [State.window, State.setWindow]

theorem State.window_setWindow_other (s : State) {h k : Hatch} (w : Window) (ne : k ≠ h) :
    (s.setWindow h w).window k = s.window k := Tab.read_put_other _ _ ne

@[simp] theorem State.drive_setDrive (s : State) (a : ActId) (d : Drive) : (s.setDrive a d).drive a = d := by
  simp [State.drive, State.setDrive]

theorem State.drive_setDrive_other (s : State) {a b : ActId} (d : Drive) (ne : b ≠ a) :
    (s.setDrive a d).drive b = s.drive b := Tab.read_put_other _ _ ne

@[simp] theorem State.node_setNode (s : State) (n : Node) (r : NodeRecord) : (s.setNode n r).node n = r := by
  simp [State.node, State.setNode]

theorem State.node_setNode_other (s : State) {n m : Node} (r : NodeRecord) (ne : m ≠ n) :
    (s.setNode n r).node m = s.node m := Tab.read_put_other _ _ ne

@[simp] theorem State.outChan_setOutChan (s : State) (n : Node) (c : Chan) (o : OutChan) :
    (s.setOutChan n c o).outChan n c = o := by simp [State.outChan, State.setOutChan]

theorem State.outChan_setOutChan_other (s : State) {n m : Node} {c d : Chan} (o : OutChan) (ne : (m, d) ≠ (n, c)) :
    (s.setOutChan n c o).outChan m d = s.outChan m d := by
  by_cases hm : m = n
  · subst hm
    have hd : d ≠ c := fun e => ne (by rw [e])
    simp [State.outChan, State.setOutChan, Tab.read_put_other _ _ hd]
  · simp [State.outChan, State.setOutChan, Tab.read_put_other _ _ hm]

@[simp] theorem State.shadow_setShadow (s : State) (n : Node) (c : Chan) (v : Nat) :
    (s.setShadow n c v).shadow n c = v := by simp [State.shadow, State.setShadow]

theorem State.shadow_setShadow_other (s : State) {n m : Node} {c d : Chan} (v : Nat) (ne : (m, d) ≠ (n, c)) :
    (s.setShadow n c v).shadow m d = s.shadow m d := by
  by_cases hm : m = n
  · subst hm
    have hd : d ≠ c := fun e => ne (by rw [e])
    simp [State.shadow, State.setShadow, Tab.read_put_other _ _ hd]
  · simp [State.shadow, State.setShadow, Tab.read_put_other _ _ hm]

/-! The flow queue -/

/-- All a join can do (R96): the request stands behind every entry that was there before the event, and before those of
the hatches of higher number that joined in it. -/
theorem joinQueue_spec (joined : List Hatch) (r : FlowRequest) (q : List FlowRequest) :
    ∃ before after, q = before ++ after ∧ joinQueue joined r q = before ++ r :: after ∧
      (∀ x ∈ before, ¬ (x.hatch ∈ joined ∧ r.hatch < x.hatch)) ∧
      ∀ x rest, after = x :: rest → x.hatch ∈ joined ∧ r.hatch < x.hatch := by
  induction q with
  | nil => exact ⟨[], [], rfl, rfl, nofun, nofun⟩
  | cons x q ih =>
    by_cases c : x.hatch ∈ joined ∧ r.hatch < x.hatch
    · refine ⟨[], x :: q, rfl, by simp [joinQueue, c], nofun, ?_⟩
      rintro _ _ ⟨⟩
      exact c
    · obtain ⟨a, b, rfl, e, ha, hb⟩ := ih
      refine ⟨x :: a, b, rfl, ?_, ?_, hb⟩
      · simp only [joinQueue, List.contains_eq_mem, Bool.and_eq_true, decide_eq_true_eq, if_neg c, e, List.cons_append]
      · rintro y (_ | ⟨_, m⟩)
        · exact c
        · exact ha y m

/-- The first request of an event joins at the tail. -/
@[simp] theorem joinQueue_first (r : FlowRequest) (q : List FlowRequest) : joinQueue [] r q = q ++ [r] := by
  induction q with
  | nil => rfl
  | cons x q ih => simp [joinQueue, ih]

theorem mem_joinQueue (joined : List Hatch) (r x : FlowRequest) (q : List FlowRequest) :
    x ∈ joinQueue joined r q ↔ x = r ∨ x ∈ q := by
  obtain ⟨a, b, rfl, e, -, -⟩ := joinQueue_spec joined r q
  simp only [e, List.mem_append, List.mem_cons]
  tauto

end Machine
end Sys2Proof
end

