-- ==== Sys2Proof/Laws/Keeps.lean ====
section
/-! SUPPORT. What each operation of the hatches' blocks leaves alone: `Keeps` for every operation, and `Acts h` for the
operations on one hatch, which leave every other hatch and its window as they were. -/

namespace Sys2Proof.Machine

/-- An operation of the hatches' blocks: it writes none of the fields of `still`, no sticky flag and no queue of the
Console Port, and takes frames from the F forward queue at most. -/
structure Keeps (s t : State) : Prop where
  still : t.still = s.still
  mu : t.mu = s.mu
  cp : t.cp = s.cp
  forward : t.flc.forward.Sublist s.flc.forward

theorem Keeps.refl (s : State) : Keeps s s := ⟨rfl, rfl, rfl, List.Sublist.refl _⟩

theorem Keeps.trans {s t u : State} (a : Keeps s t) (b : Keeps t u) : Keeps s u :=
  ⟨b.still.trans a.still, b.mu.trans a.mu, b.cp.trans a.cp, b.forward.trans a.forward⟩

theorem Keeps.sl {s t : State} (k : Keeps s t) : t.sl = s.sl := congrArg (fun x => x.sl) k.still
theorem Keeps.signals {s t : State} (k : Keeps s t) : t.signals = s.signals := 
  congrArg (fun x => x.signals) k.still
theorem Keeps.freeCount {s t : State} (k : Keeps s t) : t.freeCount = s.freeCount := 
  congrArg (fun x => x.freeCount) k.still
theorem Keeps.pending {s t : State} (k : Keeps s t) : t.pending = s.pending := 
  congrArg (fun x => x.pending) k.still
theorem Keeps.lapse {s t : State} (k : Keeps s t) : t.ls.lapse = s.ls.lapse :=
  congrArg (fun x => x.ls.lapse) k.still
theorem Keeps.link {s t : State} (k : Keeps s t) : t.ls.link = s.ls.link := congrArg (fun x => x.ls.link) k.still
theorem Keeps.nodes {s t : State} (k : Keeps s t) : t.flc.nodes = s.flc.nodes :=
  congrArg (fun x => x.flc.nodes) k.still
theorem Keeps.neutralPending {s t : State} (k : Keeps s t) : t.flc.neutralPending = s.flc.neutralPending :=
  congrArg (fun x => x.flc.neutralPending) k.still
theorem Keeps.image {s t : State} (k : Keeps s t) : t.image = s.image := by simp only [State.image, k.mu]
theorem Keeps.hatchRec {s t : State} (k : Keeps s t) (h : Hatch) : t.hatchRec h = s.hatchRec h := by
  simp only [State.hatchRec, k.image]
theorem Keeps.enabled {s t : State} (k : Keeps s t) (h : Hatch) : t.enabled h = s.enabled h := by
  simp only [State.enabled, k.hatchRec]
theorem Keeps.motionEn {s t : State} (k : Keeps s t) : t.motionEn = s.motionEn := by
  simp only [State.motionEn, k.sl]
theorem Keeps.signal {s t : State} (k : Keeps s t) (i : SignalId) : t.signal i = s.signal i := by
  simp only [State.signal, k.signals]
theorem Keeps.condHolds {s t : State} (k : Keeps s t) (h : Hatch) : t.condHolds h = s.condHolds h := by
  funext c
  simp only [State.condHolds, k.image, k.hatchRec, k.signal]
theorem Keeps.setHolds {s t : State} (k : Keeps s t) (h : Hatch) (i : SetId) : t.setHolds h i = s.setHolds h i := by
  simp only [State.setHolds, k.image, k.condHolds]

/-- An operation on one hatch: every other hatch and its hold window stay. -/
structure Acts (h : Hatch) (s t : State) : Prop extends Keeps s t where
  others : ∀ k, k ≠ h → t.hatch k = s.hatch k
  windows : ∀ k, k ≠ h → t.window k = s.window k

theorem Acts.refl (h : Hatch) (s : State) : Acts h s s := ⟨Keeps.refl s, fun _ _ => rfl, fun _ _ => rfl⟩

theorem Acts.trans {h : Hatch} {s t u : State} (a : Acts h s t) (b : Acts h t u) : Acts h s u :=
  ⟨a.toKeeps.trans b.toKeeps, fun k n => (b.others k n).trans (a.others k n),
    fun k n => (b.windows k n).trans (a.windows k n)⟩

/-- An operation on the drives, the output image, the shadows and the forward queue: no hatch and no window changes. -/
structure Moves (s t : State) : Prop extends Keeps s t where
  hatches : t.hatches = s.hatches
  ls : t.ls = s.ls

theorem Moves.refl (s : State) : Moves s s := ⟨Keeps.refl s, rfl, rfl⟩

theorem Moves.trans {s t u : State} (a : Moves s t) (b : Moves t u) : Moves s u :=
  ⟨a.toKeeps.trans b.toKeeps, b.hatches.trans a.hatches, b.ls.trans a.ls⟩

theorem Moves.hatch {s t : State} (a : Moves s t) (k : Hatch) : t.hatch k = s.hatch k := by
  simp only [State.hatch, a.hatches]

theorem Moves.window {s t : State} (a : Moves s t) (k : Hatch) : t.window k = s.window k := by
  simp only [State.window, a.ls]

theorem Moves.acts {s t : State} (a : Moves s t) (h : Hatch) : Acts h s t :=
  ⟨a.toKeeps, fun k _ => a.hatch k, fun k _ => a.window k⟩

theorem Moves.foldl {α : Type} (f : State → α → State) (hf : ∀ s a, Moves s (f s a)) (l : List α) (s : State) :
    Moves s (l.foldl f s) := by
  induction l generalizing s with
  | nil => exact Moves.refl s
  | cons a l ih => exact (hf s a).trans (ih _)

theorem Moves.ite {s t u : State} {p : Prop} [Decidable p] (a : Moves s t) (b : Moves s u) :
    Moves s (if p then t else u) := by split <;> assumption

/-! ### Operations on the state -/

theorem modHatch_acts (s : State) (h : Hatch) (f : HatchStatus → HatchStatus) : Acts h s (s.modHatch h f) :=
  ⟨⟨rfl, rfl, rfl, List.Sublist.refl _⟩, fun _ n => State.hatch_modHatch_other s f n, fun _ _ => rfl⟩

theorem setWindow_acts (s : State) (h : Hatch) (w : Window) : Acts h s (s.setWindow h w) :=
  ⟨⟨rfl, rfl, rfl, List.Sublist.refl _⟩, fun _ _ => rfl, fun _ n => State.window_setWindow_other s w n⟩

theorem startWindow_acts (s : State) (h : Hatch) : Acts h s (s.startWindow h) := setWindow_acts s h _

theorem modFa_moves (s : State) (f : FlowAllocator → FlowAllocator) : Moves s (s.modFa f) :=
  ⟨⟨rfl, rfl, rfl, List.Sublist.refl _⟩, rfl, rfl⟩

theorem evModFa_moves (e : Ev) (f : FlowAllocator → FlowAllocator) : Moves e.st (e.mod fun s => s.modFa f).st :=
  modFa_moves e.st f

theorem setDrive_moves (s : State) (a : ActId) (d : Drive) : Moves s (s.setDrive a d) :=
  ⟨⟨rfl, rfl, rfl, List.Sublist.refl _⟩, rfl, rfl⟩

theorem setAlloc_moves (s : State) (p : ActId × Nat) : Moves s (s.setAlloc p) := setDrive_moves s _ _

theorem reallocate_moves (s : State) : Moves s s.reallocate := Moves.foldl _ setAlloc_moves _ s

theorem setOutChan_moves (s : State) (n : Node) (c : Chan) (o : OutChan) : Moves s (s.setOutChan n c o) :=
  ⟨⟨rfl, rfl, rfl, List.Sublist.refl _⟩, rfl, rfl⟩

theorem writeOut_moves (s : State) (n : Node) (c : Chan) (v : Nat) : Moves s (s.writeOut n c v) :=
  Moves.ite (Moves.refl s) (setOutChan_moves s n c _)

theorem setShadow_moves (s : State) (n : Node) (c : Chan) (v : Nat) : Moves s (s.setShadow n c v) :=
  ⟨⟨rfl, rfl, rfl, List.Sublist.refl _⟩, rfl, rfl⟩

theorem placeDrive_moves (s : State) (a : ActId) (d : Drive) : Moves s (s.placeDrive a d) :=
  Moves.ite (setDrive_moves s a d) ((setDrive_moves s a d).trans (writeOut_moves _ _ _ _))

theorem restDrive_moves (s : State) (a : ActId) : Moves s (s.restDrive a) := placeDrive_moves s a {}

theorem restDrives_moves (s : State) (l : List ActId) : Moves s (s.restDrives l) := Moves.foldl _ restDrive_moves l s

theorem withdrawDrives_moves (s : State) (l : List ActId) : Moves s (s.withdrawDrives l) :=
  Moves.foldl _ (fun s a => placeDrive_moves s a _) l s

theorem driveBinary_moves (s : State) (l : List (ActId × Nat)) : Moves s (s.driveBinary l) :=
  Moves.foldl _ (fun s p => (writeOut_moves s _ _ p.2 : Moves s (s.writeBinary p))) l s

theorem neutralBinary_moves (s : State) (l : List ActId) : Moves s (s.neutralBinary l) := driveBinary_moves s _

theorem neutralStep_moves (s : State) (h : Hatch) : Moves s (s.neutralStep h) := by
  unfold State.neutralStep
  split
  · exact neutralBinary_moves s _
  · exact Moves.refl s

theorem neutralChan_moves (s : State) (n : Node) (c : Chan) : Moves s (s.neutralChan n c) :=
  (writeOut_moves s n c _).trans (setShadow_moves _ _ _ _)

theorem undoRemoved_moves (s : State) (h : Hatch) (f : Frame) : Moves s (s.undoRemoved h f) := by
  unfold State.undoRemoved
  split
  · exact Moves.refl s
  · exact Moves.foldl _ (fun s _ => Moves.ite (neutralChan_moves s _ _) (Moves.refl s)) _ s

theorem neutralShadows_moves (s : State) (h : Hatch) : Moves s (s.neutralShadows h) :=
  Moves.foldl _ (fun s _ => Moves.ite (Moves.refl s) (neutralChan_moves s _ _)) _ s

theorem sweepFrame_moves (h : Hatch) (r : BlockReason) (e : Ev) (f : Frame) :
    Moves e.st (Ev.sweepFrame h r e f).st := by
  unfold Ev.sweepFrame
  split
  · exact undoRemoved_moves e.st h f
  · exact Moves.refl e.st

theorem sweep_moves (h : Hatch) (r : BlockReason) (l : List Frame) (e : Ev) :
    Moves e.st (l.foldl (Ev.sweepFrame h r) e).st := by
  induction l generalizing e with
  | nil => exact Moves.refl _
  | cons f l ih => exact (sweepFrame_moves h r e f).trans (ih _)

theorem sweptForward_moves (s : State) (h : Hatch) :
    Moves s { s with flc := { s.flc with forward := s.sweptForward h } } :=
  ⟨⟨rfl, rfl, rfl, List.filter_sublist⟩, rfl, rfl⟩

/-! ### Operations within an event -/

theorem neutralise_moves (e : Ev) (h : Hatch) (r : BlockReason) : Moves e.st (e.neutralise h r).st :=
  ((sweep_moves h r _ e).trans (sweptForward_moves _ h)).trans (neutralShadows_moves _ h)

theorem wantPass_st (e : Ev) : e.wantPass.st = e.st := rfl
theorem wantRealloc_st (e : Ev) : e.wantRealloc.st = e.st := rfl
theorem note_st (e : Ev) (h : Hatch) (n : TxEntry) : (e.note h n).st = e.st := rfl
theorem noteJoin_st (e : Ev) (h : Hatch) : (e.noteJoin h).st = e.st := rfl
theorem joinsAnew_st (e : Ev) : e.joinsAnew.st = e.st := rfl
theorem mod_st (e : Ev) (f : State → State) : (e.mod f).st = f e.st := rfl

theorem Moves.pass {s : State} {e : Ev} (a : Moves s e.st) : Moves s e.wantPass.st := a
theorem Moves.realloc {s : State} {e : Ev} (a : Moves s e.st) : Moves s e.wantRealloc.st := a

theorem Moves.joined {s : State} {e : Ev} {h : Hatch} (a : Moves s e.st) : Moves s (e.noteJoin h).st := a

theorem join_moves (e : Ev) (r : FlowRequest) : Moves e.st (e.join r).st := by
  unfold Ev.join
  dsimp only
  split
  · exact (evModFa_moves e _).joined.pass
  · exact (evModFa_moves e _).joined

theorem withdrawRequest_moves (e : Ev) (h : Hatch) : Moves e.st (e.withdrawRequest h).st := by
  unfold Ev.withdrawRequest
  dsimp only
  split
  · split
    · exact (evModFa_moves e _).pass
    · exact evModFa_moves e _
  · exact evModFa_moves e _

theorem releaseUnit_moves (e : Ev) (h : Hatch) : Moves e.st (e.releaseUnit h).st := by
  unfold Ev.releaseUnit
  split
  · exact (evModFa_moves e _).pass
  · exact Moves.refl _

theorem withdrawFlow_moves (e : Ev) (h : Hatch) : Moves e.st (e.withdrawFlow h).st :=
  (withdrawRequest_moves e h).trans (releaseUnit_moves _ h)

theorem endAction_moves (e : Ev) (a : ActId) : Moves e.st (e.endAction a).st := (evModFa_moves e _).pass

theorem evModHatch_acts (e : Ev) (h : Hatch) (f : HatchStatus → HatchStatus) : Acts h e.st (e.modHatch h f).st :=
  modHatch_acts e.st h f

theorem evSetWindow_acts (e : Ev) (h : Hatch) (w : Window) : Acts h e.st (e.setWindow h w).st :=
  setWindow_acts e.st h w

theorem Acts.note {h k : Hatch} {s : State} {e : Ev} {n : TxEntry} (a : Acts h s e.st) : Acts h s (e.note k n).st := a

theorem tripEntry_acts (e : Ev) (h : Hatch) (c : TripSet) : Acts h e.st (e.tripEntry h c).st := by
  unfold Ev.tripEntry
  dsimp only
  refine Acts.note (Acts.trans ?_ (evSetWindow_acts _ h _))
  refine Acts.trans ?_ ((withdrawFlow_moves _ h).acts h)
  have a : Acts h e.st ((e.modHatch h fun r => r.trippedWith c).mod
        fun s => (s.restDrives (s.propActs h)).neutralBinary (s.binaryActs h)).st :=
    (evModHatch_acts e h _).trans (((restDrives_moves _ _).trans (neutralBinary_moves _ _)).acts h)
  split
  · exact a.trans ((neutralise_moves _ h _).acts h)
  · exact a

theorem trip_acts (e : Ev) (h : Hatch) (c : TripSet) : Acts h e.st (e.trip h c).st := by
  unfold Ev.trip
  split
  · exact Acts.refl h _
  · exact evModHatch_acts e h _
  all_goals exact tripEntry_acts e h c

theorem enterHeld_acts (e : Ev) (h : Hatch) (c : HoldSet) : Acts h e.st (e.enterHeld h c).st := by
  have b : Acts h e.st (((e.withdrawFlow h).mod fun s => (s.neutralStep h).withdrawDrives (s.propActs h)).modHatch h
      fun r => r.heldWith (e.st.hatchRec h) c).st := by
    refine Acts.trans ?_ (evModHatch_acts _ h _)
    refine ((withdrawFlow_moves e h).trans ?_).acts h
    exact (neutralStep_moves _ h).trans (withdrawDrives_moves _ _)
  unfold Ev.enterHeld
  dsimp only
  split
  · exact b
  · split
    · exact b.trans (trip_acts _ h _)
    · split
      · exact b.trans (evModHatch_acts _ h _)
      · exact b

theorem entryWindow_acts (e : Ev) (h : Hatch) (a b : Bool) : Acts h e.st (e.entryWindow h a b).st := by
  unfold Ev.entryWindow
  split
  · exact evSetWindow_acts e h _
  · split
    · exact Acts.refl h _
    · exact startWindow_acts e.st h

theorem enterStep_acts (e : Ev) (h : Hatch) (o : Op) (n : StepNo) (p : Bool) :
    Acts h e.st (e.enterStep h o n p).st := by
  unfold Ev.enterStep
  dsimp only
  have b : Acts h e.st ((e.modHatch h fun x =>
      { x with state := .running, operation := some o, step := some n, phase := none }).entryWindow h
        (e.st.stepRec h o n).attended p).st := (evModHatch_acts e h _).trans (entryWindow_acts _ h _ p)
  split
  · exact b.trans (tripEntry_acts _ h _)
  · split
    · exact b.trans (enterHeld_acts _ h _)
    · split
      · exact b.trans (enterHeld_acts _ h _)
      · exact b.trans ((evModHatch_acts _ h _).trans ((join_moves _ _).acts h))

theorem resume_acts (e : Ev) (h : Hatch) (k : ResumeKind) : Acts h e.st (e.resume h k).st := by
  unfold Ev.resume
  dsimp only
  split
  · exact (evModHatch_acts e h _).trans (enterStep_acts _ h _ _ _)
  · exact Acts.refl h _

theorem removeHold_acts (e : Ev) (h : Hatch) (c : HoldCause) : Acts h e.st (e.removeHold h c).st := by
  unfold Ev.removeHold
  dsimp only
  split
  · split
    · exact (evModHatch_acts e h _).trans (resume_acts _ h _)
    · exact evModHatch_acts e h _
  · exact Acts.refl h _

theorem hold_acts (e : Ev) (h : Hatch) (c : HoldCause) : Acts h e.st (e.hold h c).st := by
  unfold Ev.hold
  split
  · exact enterHeld_acts e h _
  · exact evModHatch_acts e h _
  all_goals exact Acts.refl h _

theorem evStartWindow_acts (e : Ev) (h : Hatch) : Acts h e.st (e.mod fun s => s.startWindow h).st :=
  startWindow_acts e.st h

theorem startSequence_acts (e : Ev) (h : Hatch) (o : Op) (c : Console) : Acts h e.st (e.startSequence h o c).st := by
  unfold Ev.startSequence
  dsimp only
  refine Acts.trans ?_ (enterStep_acts _ h _ _ _)
  refine Acts.trans ?_ (evStartWindow_acts _ h)
  exact evModHatch_acts e h _

theorem startPending_acts (e : Ev) (h : Hatch) (o : Op) (c : Console) : Acts h e.st (e.startPending h o c).st := by
  unfold Ev.startPending
  split
  · exact Acts.refl h _
  · exact startSequence_acts e h o c

theorem stopEnd_acts (e : Ev) (h : Hatch) : Acts h e.st (e.stopEnd h).st := by
  have b : Acts h e.st ((e.modHatch h fun x => { x.idled with marker := x.here }).setWindow h .stopped).st :=
    (evModHatch_acts e h _).trans (evSetWindow_acts _ h _)
  unfold Ev.stopEnd
  dsimp only
  split
  · refine Acts.trans ?_ (startPending_acts _ h _ _)
    exact b
  · exact b

theorem checkStop_acts (e : Ev) (h : Hatch) : Acts h e.st (e.checkStop h).st := by
  unfold Ev.checkStop
  split
  · exact stopEnd_acts e h
  · exact Acts.refl h _

theorem enterStopping_acts (e : Ev) (h : Hatch) (q : Option (Op × Console)) :
    Acts h e.st (e.enterStopping h q).st := by
  have b : Acts h e.st ((((e.mod fun s => (s.neutralStep h).withdrawDrives (s.propActs h)).withdrawFlow h).setWindow h
      .stopped).modHatch h fun r => { r.quiet with state := .stopping, request := q }).st := by
    refine Acts.trans ?_ (evModHatch_acts _ h _)
    refine Acts.trans ?_ (evSetWindow_acts _ h _)
    refine Moves.acts (Moves.trans ?_ (withdrawFlow_moves _ h)) h
    exact (neutralStep_moves e.st h).trans (withdrawDrives_moves _ _)
  unfold Ev.enterStopping
  dsimp only
  split
  · exact b.trans (checkStop_acts _ h)
  · split
    · exact b.trans (trip_acts _ h _)
    · exact b.trans (checkStop_acts _ h)

theorem complete_acts (e : Ev) (h : Hatch) : Acts h e.st (e.complete h).st :=
  (evModHatch_acts e h _).trans (evSetWindow_acts _ h _)

theorem stepEnd_acts (e : Ev) (h : Hatch) : Acts h e.st (e.stepEnd h).st := by
  have b : Acts h e.st (((e.mod fun s => s.restDrives ((s.propActs h).filter fun a =>
      (s.drive a).state == .inMotion)).modHatch h fun x =>
        { x with phase := none, stepTimer := none, settleTimer := none }).releaseUnit h).st := by
    refine Acts.trans ?_ ((releaseUnit_moves _ h).acts h)
    refine Acts.trans ?_ (evModHatch_acts _ h _)
    exact (restDrives_moves e.st _).acts h
  unfold Ev.stepEnd
  dsimp only
  split
  · split
    · exact b.trans (enterStep_acts _ h _ _ _)
    · exact b.trans (complete_acts _ h)
  · exact b

theorem settle_acts (e : Ev) (h : Hatch) (r : StepRec) : Acts h e.st (e.settle h r).st := by
  have b : Acts h e.st ((e.mod fun s => s.neutralBinary ((s.stepBinary h r).map (·.1))).modHatch h fun x =>
      { x with phase := some .settling, settleTimer := some r.settle }).st := by
    refine Acts.trans ?_ (evModHatch_acts _ h _)
    exact (neutralBinary_moves e.st _).acts h
  unfold Ev.settle
  dsimp only
  split
  · exact b.trans (stepEnd_acts _ h)
  · exact b

theorem unsettle_acts (e : Ev) (h : Hatch) (r : StepRec) : Acts h e.st (e.unsettle h r).st := by
  unfold Ev.unsettle
  refine Acts.trans ?_ (evModHatch_acts _ h _)
  exact (driveBinary_moves e.st _).acts h

theorem doneVerdict_acts (e : Ev) (h : Hatch) (r : StepRec) : Acts h e.st (e.doneVerdict h r).st := by
  unfold Ev.doneVerdict
  split
  · exact settle_acts e h r
  · exact unsettle_acts e h r
  · exact Acts.refl h _

theorem startAction_moves (h : Hatch) (e : Ev) (d : DriveAction) : Moves e.st (Ev.startAction h e d).st := by
  unfold Ev.startAction
  dsimp only
  split
  · exact Moves.refl _
  · split
    · refine Moves.trans ?_ (endAction_moves _ _)
      exact (setDrive_moves e.st _ _).trans (restDrive_moves _ _)
    · exact (setDrive_moves e.st _ _).trans (setDrive_moves _ _ _)

theorem startActions_moves (h : Hatch) (l : List DriveAction) (e : Ev) :
    Moves e.st (l.foldl (Ev.startAction h) e).st := by
  induction l generalizing e with
  | nil => exact Moves.refl _
  | cons d l ih => exact (startAction_moves h e d).trans (ih _)

theorem evDriveBinary_moves (e : Ev) (f : State → List (ActId × Nat)) :
    Moves e.st (e.mod fun s => s.driveBinary (f s)).st := driveBinary_moves e.st _

theorem admitted_acts (e : Ev) (h : Hatch) : Acts h e.st (e.admitted h).st := by
  unfold Ev.admitted
  split
  · exact Acts.refl h _
  · dsimp only
    split
    · refine Acts.trans ?_ (trip_acts _ h _)
      exact evModHatch_acts e h _
    · split
      · refine Acts.trans ?_ (enterHeld_acts _ h _)
        exact evModHatch_acts e h _
      · split
        · refine Acts.trans ?_ (settle_acts _ h _)
          refine Acts.trans ?_ ((startActions_moves h _ _).acts h)
          refine Acts.trans ?_ ((evDriveBinary_moves _ _).acts h)
          exact evModHatch_acts e h _
        · refine Acts.trans ?_ ((startActions_moves h _ _).acts h)
          refine Acts.trans ?_ ((evDriveBinary_moves _ _).acts h)
          exact evModHatch_acts e h _

theorem stepShed_acts (e : Ev) (h : Hatch) : Acts h e.st (e.stepShed h).st := by
  unfold Ev.stepShed
  split
  · refine Acts.trans ?_ (evModHatch_acts _ h _)
    exact ((neutralStep_moves e.st h).trans (restDrives_moves _ _)).acts h
  · exact Acts.refl h _

theorem manualShed_acts (e : Ev) (h : Hatch) : Acts h e.st (e.manualShed h).st := by
  unfold Ev.manualShed
  split
  · exact ((neutralise_moves e h _).acts h).trans ((evModHatch_acts _ h _).trans (evSetWindow_acts _ h _))
  · exact Acts.refl h _

/-! ### Operations on several hatches -/

theorem forHatches_keeps (f : Hatch → Ev → Ev) (hf : ∀ h e, Keeps e.st (f h e).st) (l : List Hatch) (e : Ev) :
    Keeps e.st (e.forHatches l f).st := by
  unfold Ev.forHatches
  induction l generalizing e with
  | nil => exact Keeps.refl _
  | cons h l ih => exact (hf h e).trans (ih _)

theorem shedLast_keeps (e : Ev) : Keeps e.st e.shedLast.st := by
  unfold Ev.shedLast
  dsimp only
  split
  · exact Keeps.refl _
  · refine Keeps.trans ?_ (stepShed_acts _ _).toKeeps
    refine Keeps.trans ?_ (evModFa_moves _ _).toKeeps
    exact (evModFa_moves e _).pass.toKeeps
  · refine Keeps.trans ?_ (manualShed_acts _ _).toKeeps
    exact (evModFa_moves e _).pass.toKeeps

theorem shed_keeps (k : Nat) (e : Ev) : Keeps e.st (e.shed k).st := by
  induction k generalizing e with
  | zero => exact Keeps.refl _
  | succ k ih =>
    unfold Ev.shed
    split
    · exact Keeps.refl _
    · split
      · exact (shedLast_keeps e).trans (ih _)
      · exact Keeps.refl _

theorem updateAvail_keeps (e : Ev) : Keeps e.st e.updateAvail.st := by
  unfold Ev.updateAvail
  dsimp only
  split
  · exact Keeps.refl _
  · refine Keeps.trans ?_ (shed_keeps _ _)
    split
    · exact (evModFa_moves e _).realloc.pass.toKeeps
    · exact (evModFa_moves e _).realloc.toKeeps

theorem pass_keeps (e : Ev) : Keeps e.st e.pass.st := by
  unfold Ev.pass
  dsimp only
  refine Keeps.trans ?_ (forHatches_keeps _ (fun h e => (admitted_acts e h).toKeeps) _ _)
  have a : Keeps e.st (e.mod fun s => s.modFa fun _ => (FlowAllocator.admitAll e.st.fa.queue.length e.st.fa).2).st :=
    (evModFa_moves e _).toKeeps
  split <;> exact a

theorem passes_keeps (k : Nat) (e : Ev) : Keeps e.st (e.passes k).st := by
  induction k generalizing e with
  | zero => exact Keeps.refl _
  | succ k ih =>
    unfold Ev.passes
    split
    · exact (pass_keeps e).trans (ih _)
    · exact Keeps.refl _

theorem forHatches_others (f : Hatch → Ev → Ev) (hf : ∀ h e, Acts h e.st (f h e).st) (l : List Hatch) (e : Ev)
    (k : Hatch) (nk : k ∉ l) : (e.forHatches l f).st.hatch k = e.st.hatch k := by
  unfold Ev.forHatches
  induction l generalizing e with
  | nil => rfl
  | cons h l ih =>
    simp only [List.mem_cons, not_or] at nk
    simp only [List.foldl_cons]
    rw [ih _ nk.2, (hf h e).others k nk.1]

theorem admitted_quiet (e : Ev) (h : Hatch) (q : (e.st.hatch h).waiting = false) : e.admitted h = e := by
  simp [Ev.admitted, State.waitingStep, q]

/-- The sequencers that take admissions: a hatch that does not wait for flow is left as it is. -/
theorem admissions_quiet (l : List Hatch) (e : Ev) (k : Hatch) (q : (e.st.hatch k).waiting = false) :
    (e.forHatches l fun h e => e.admitted h).st.hatch k = e.st.hatch k ∧
      (e.forHatches l fun h e => e.admitted h).st.window k = e.st.window k := by
  unfold Ev.forHatches
  induction l generalizing e with
  | nil => exact ⟨rfl, rfl⟩
  | cons h l ih =>
    simp only [List.foldl_cons]
    by_cases hk : k = h
    · subst hk
      rw [admitted_quiet e k q]
      exact ih e q
    · have a := admitted_acts e h
      have q' : ((e.admitted h).st.hatch k).waiting = false := by rw [a.others k hk]; exact q
      exact ⟨(ih _ q').1.trans (a.others k hk), (ih _ q').2.trans (a.windows k hk)⟩

theorem pass_quiet (e : Ev) (k : Hatch) (q : (e.st.hatch k).waiting = false) :
    e.pass.st.hatch k = e.st.hatch k ∧ e.pass.st.window k = e.st.window k := by
  unfold Ev.pass
  dsimp only
  split <;> exact admissions_quiet _ _ k q

/-- The admission passes leave a hatch that does not wait for flow as it is. -/
theorem passes_quiet (n : Nat) (e : Ev) (k : Hatch) (q : (e.st.hatch k).waiting = false) :
    (e.passes n).st.hatch k = e.st.hatch k ∧ (e.passes n).st.window k = e.st.window k := by
  induction n generalizing e with
  | zero => exact ⟨rfl, rfl⟩
  | succ n ih =>
    unfold Ev.passes
    split
    · have p := pass_quiet e k q
      have q' : (e.pass.st.hatch k).waiting = false := by rw [p.1]; exact q
      exact ⟨(ih _ q').1.trans p.1, (ih _ q').2.trans p.2⟩
    · exact ⟨rfl, rfl⟩

/-! ### Offers, and the end of an event -/

/-- Offers of frames: they join the C transmit queue or set C_TX_OVERRUN, and change nothing else (R137). -/
structure Offers (s t : State) : Prop where
  rest : { t with cp := { t.cp with tx := s.cp.tx }, mu := { t.mu with flags := s.mu.flags } } = s
  bound : s.cp.tx.length ≤ 8 → t.cp.tx.length ≤ 8
  queued : ∃ l, t.cp.tx = s.cp.tx ++ l
  flags : t.mu.flags = s.mu.flags ∨ t.mu.flags = s.mu.flags ||| Flag.cTxOverrun.mask

theorem Offers.refl (s : State) : Offers s s := ⟨rfl, id, ⟨[], by simp⟩, .inl rfl⟩

theorem Offers.trans {s t u : State} (a : Offers s t) (b : Offers t u) : Offers s u := by
  refine ⟨?_, fun h => b.bound (a.bound h), ?_, ?_⟩
  · have e1 := a.rest
    rw [← b.rest] at e1
    exact e1
  · obtain ⟨l, hl⟩ := a.queued
    obtain ⟨m, hm⟩ := b.queued
    exact ⟨l ++ m, by rw [hm, hl, List.append_assoc]⟩
  · rcases a.flags with h | h <;> rcases b.flags with k | k
    · exact .inl (k.trans h)
    · exact .inr (by rw [k, h])
    · exact .inr (by rw [k, h])
    · exact .inr (by rw [k, h, BitVec.or_assoc, BitVec.or_self])

theorem offer_offers (s : State) (t : TxEntry) : Offers s (s.offer t) := by
  unfold State.offer
  split
  · rename_i h
    exact ⟨rfl, fun _ => by simp only [List.length_append, List.length_singleton]; omega, ⟨[t], rfl⟩, .inl rfl⟩
  · exact ⟨rfl, id, ⟨[], by simp⟩, .inr rfl⟩

theorem offerAll_offers (s : State) (l : List TxEntry) : Offers s (s.offerAll l) := by
  unfold State.offerAll
  induction l generalizing s with
  | nil => exact Offers.refl s
  | cons t l ih => exact (offer_offers s t).trans (ih _)

/-- The end of an event: the passes and the new allocations, which only `Keeps`, then the offers of the notices. -/
theorem finish_split (e : Ev) : ∃ u, Keeps e.st u ∧ Offers u e.finish := by
  unfold Ev.finish
  refine ⟨_, ?_, offerAll_offers _ _⟩
  split
  · exact (passes_keeps _ e).trans (reallocate_moves _).toKeeps
  · exact passes_keeps _ e

/-- The end of an event leaves a hatch that does not wait for flow as it is. -/
theorem finish_quiet (e : Ev) (k : Hatch) (q : (e.st.hatch k).waiting = false) :
    e.finish.hatch k = e.st.hatch k ∧ e.finish.window k = e.st.window k := by
  unfold Ev.finish
  have p := passes_quiet passBound e k q
  have o := offerAll_offers (if (e.passes passBound).reallocDue = true then (e.passes passBound).st.reallocate
    else (e.passes passBound).st) (sortNotices (e.passes passBound).notices)
  have hh := congrArg State.hatches o.rest
  have hl := congrArg State.ls o.rest
  simp only at hh hl
  constructor
  · rw [← p.1]
    simp only [State.hatch, hh]
    split
    · rw [(reallocate_moves _).hatches]
    · rfl
  · rw [← p.2]
    simp only [State.window, hl]
    split
    · rw [(reallocate_moves _).ls]
    · rfl

end Sys2Proof.Machine
end

