-- ==== Sys2Proof/Tests/Slice0.lean ====
section
/-! SUPPORT. Tests: ill-formed operands, the manual's worked examples, one small step of each command, and a witness for
each statement with hypotheses. Expected values are the manual's, or follow from its rules by hand. -/

namespace Sys2Proof.Tests

open Sys2Proof.Machine

set_option Elab.async false

/-! ### Ill-formed operands -/

/-- A run brings at least one byte (R127). -/
theorem test_empty_run_refused : (Instr.cFrameArrives { bytes := [], framingError := false }).wellFormed = false := by
  decide

/-- An expiry names at least one signal (R24). -/
theorem test_empty_expiry_refused : (Instr.signalAgeExpiry []).wellFormed = false := by decide

/-- An expiry names no signal twice (R24). -/
theorem test_repeated_expiry_refused : (Instr.signalAgeExpiry [3, 3]).wellFormed = false := by decide

/-! ### The manual's worked values -/

/-- Section 0.5: the CRC of the characters "123456789". -/
theorem test_crc_of_the_digits :
    crc16 [0x31#8, 0x32#8, 0x33#8, 0x34#8, 0x35#8, 0x36#8, 0x37#8, 0x38#8, 0x39#8] = 0x29B1#16 := by
  decide +kernel

/-- Table 8-3: the lead byte of kind 6 holds its complement below it. -/
theorem test_lead_byte_of_stop : leadByte .stop = 0x69#8 := by decide

/-- A drive of the worked case of section 6.10: minimum 60, target 300. -/
def roll (a : ActId) : Share := { act := a, m := 60, t := 300, paused := false }

/-- The same drive, paused. -/
def rollPaused (a : ActId) : Share := { act := a, m := 60, t := 0, paused := true }

/-- Table 6-2, row 1. -/
theorem test_allocations_of_840 : (allocations 840 180 [roll 0, roll 1, roll 2, roll 3]).map (·.2) =
    [165, 165, 165, 165] := by decide

/-- Table 6-2, row 2. -/
theorem test_allocations_of_390 : (allocations 390 0 [roll 0, roll 1, roll 2, roll 3]).map (·.2) = [97, 97, 97, 97] := by
  decide

/-- Table 6-2, rows 3 and 4. -/
theorem test_allocations_after_an_end : (allocations 390 180 [roll 1, roll 2, roll 3]).map (·.2) = [70, 70, 70] ∧
    (allocations 390 180 [roll 2, roll 3]).map (·.2) = [105, 105] := by decide

/-- Table 6-2, row 5. -/
theorem test_allocations_with_a_pause : (allocations 390 180 [roll 2, rollPaused 3]).map (·.2) = [150, 0] := by decide

/-- The drive of Table 7-3 and Table 7-4. -/
def drive4 : PropFields :=
  { minFlow := 60, maxFlow := 400, upStep := 15, downStep := 20, creepDistance := 800, creepFlow := 120, gain := 1400,
    deadband := 310, maxSpan := 1000 }

/-- Table 7-4: the codes of the ramp-down. -/
theorem test_codes_of_the_ramp :
    [165, 145, 125, 105, 97].map (valveCode drive4 (some .outward)) = [3048, 3048, 3041, 2932, 2888] ∧
      [165, 145, 125].map (clamps drive4) = [true, true, false] := by decide

/-- Table 7-4: the commanded flow falls by 20 and stops at 97. -/
theorem test_ramp_stops_at_the_allocation : rampStep drive4 97 165 = 145 ∧ rampStep drive4 97 105 = 97 := by decide

/-- Table 7-3: the port targets. -/
theorem test_port_targets :
    targetOf drive4 .port .outward 300 14500 (some 5000) (some 180) 150 = 300 ∧
    targetOf drive4 .port .outward 300 14500 (some 5000) (some (-200)) 150 = 150 ∧
    targetOf drive4 .port .outward 300 14500 (some 13800) (some (-200)) 150 = 60 ∧
    targetOf drive4 .port .outward 300 14500 (some 13800) (some (-40)) 150 = 120 ∧
    targetOf drive4 .port .outward 300 14500 none (some (-40)) 150 = 0 := by decide

/-- Table 7-3: the starboard targets. -/
theorem test_starboard_targets :
    targetOf drive4 .stbd .outward 300 14500 (some 5000) (some 180) 150 = 150 ∧
    targetOf drive4 .stbd .outward 300 14500 (some 9000) none 150 = 150 := by decide

/-- Section 10.7: 2700 on a channel of span 600 is clamped to 2648. -/
theorem test_clamp_of_2700 : clampValue { cls := .guarded, kind := .proportional, span := 600 } 2700 = 2648 := by decide

/-! ### A small installation -/

/-- A binary jack and a proportional drive on node 1, and two GUARDED channels of hatch 1 on node 2. -/
def hall : TableImage :=
  { pump := (Tab.fill 4 {}).put 0 { running := some 6, rated := 200 },
    node :=
      ((Tab.fill 47 {}).put 0
        { inMap := true, poll := true,
          chans := ((Tab.fill 8 {}).put 0 { cls := .owned }).put 1 { cls := .owned, kind := .proportional } }).put 1
        { inMap := true, poll := false,
          chans := ((Tab.fill 8 {}).put 0 { cls := .guarded }).put 1
            { cls := .guarded, kind := .proportional, span := 600 } },
    signal := (Tab.fill 256 {}).put 1 { node := some 0, channel := 1, kind := .value },
    condition := (Tab.fill 128 {}).put 0 { ref := .direct 5, low := 1 },
    condset := (Tab.fill 64 []).put 1 [0],
    actuator := ((Tab.fill 96 {}).put 0 { kind := .binary { demand := 10 } }).put 1
      { kind := .proportional drive4, channel := 1 },
    hatch := (Tab.fill 12 {}).put 0
      { enabled := true, acts := ((Tab.fill 8 none).put 0 (some 0)).put 2 (some 1),
        sigs := (((Tab.fill 20 none).put 0 (some 1)).put 6 (some 2)).put 8 (some 3), reservation := 30 },
    step := (((Tab.fill 192 {}).put 0
        { actions := ((Tab.fill 4 none).put 0 (some { role := .pJack, command := .sideA })).put 1
            (some { role := .pDrive, command := .outTo 300 14500 }),
          doneSet := 1, timeout := 50, settle := 100 }).put 1 { attended := true, last := true }).put 2
      { tripSet := 1, attended := true } }

/-- The part in OPERATE with these tables, motion released, every hatch IDLE. -/
def rig : State := { bootState (some hall) 0 {} false 0 [] with sl := { motionReleased := true } }

/-- Hatch 1 with this status record. -/
def rigWith (r : HatchStatus) : State := rig.setHatch 0 r

/-- A frame from console 50 with tag 7 at the head of the C receive queue. -/
def heads (s : State) (k : Kind) (dest : Byte) (payload : List Byte) : State :=
  { s with cp := { s.cp with rx := [.valid { kind := k, dest := dest, src := 50#8, tag := 7#8, status := 0#8,
                                             payload := payload }] } }

/-- A management request from console 50. -/
def asks (s : State) (payload : List Byte) : State := heads s .mgmtReq 60#8 payload

/-- An operation request from console 50. -/
def orders (s : State) (payload : List Byte) : State := heads s .operate 60#8 payload

/-- The state after a command. -/
def after (c : Instr) (s : State) : State :=
  match exec c s with
  | .next t => t
  | .fault _ | .refused _ => s

/-- A run that brings a frame from console 50 to the part. -/
def brings (k : Kind) (payload : List Byte) : Run :=
  { bytes := ({ kind := k, dest := 60#8, src := 50#8, tag := 7#8, status := 0#8, payload := payload } : Frame).encode,
    framingError := false }

/-- A reply of a node to the part, with tag 9. -/
def answers (node status : Byte) (payload : List Byte) : Run :=
  { bytes := ({ kind := .fieldReply, dest := 60#8, src := node, tag := 9#8, status := status, payload := payload } :
      Frame).encode,
    framingError := false }

/-- The rig with a transaction on the line, its request sent. -/
def awaits (fn : Fn) (sent : List (Chan × Nat)) : State :=
  { rig with
      flc := { rig.flc with
        outstanding := some { node := 0, fn := fn, tag := 9#8, requester := .part, sent := sent, left := some 5 } } }

/-- RUNNING in ACTING at OPEN step 0. -/
def acting : HatchStatus :=
  { state := .running, operation := some .opening, step := some 0, phase := some .acting, owner := some 2,
    stepTimer := some 5000 }

/-- HELD at OPEN step 0 by PAUSE. -/
def heldByPause : HatchStatus :=
  { state := .held, operation := some .opening, step := some 0, owner := some 2, active := { pause := true },
    latched := { pause := true }, history := { pause := true } }

/-- MANUAL, owned by console 50. -/
def inManual : HatchStatus := { state := .manual, owner := some 2 }

/-- TRIPPED by a step timeout. -/
def isTripped : HatchStatus :=
  { state := .tripped, operation := some .opening, step := some 0, marker := some (.opening, 0), owner := some 2,
    trips := { stepTimeout := true }, firstTrip := some .stepTimeout }

/-- The drive of hatch 1 on its way out. -/
def rolling : Drive :=
  { state := .inMotion, direction := some .outward, speed := some 300, stopPosition := some 14500, target := 300,
    alloc := 97, c := 105, code := 2932 }

/-- The rig in another device mode, motion not released. -/
def rigIn (m : Mode) : State :=
  { rig with mu := { rig.mu with mode := m, working := hall }, sl := {} }

/-- The installation with node 1 also carrying signal 6 (a level), 3 (the port outer end) and 4 (the port inner end), and
steps 4 to 7 of the opening sequence: one that a hold set guards, one that completes, one that does not, and the one after
it. -/
def wired : TableImage :=
  { hall with
      signal := ((hall.signal.put 5 { node := some 0, channel := 2, kind := .value }).put 2
        { node := some 0, channel := 3 }).put 3 { node := some 0, channel := 4 },
      step := ((hall.step.put 3 { holdSet := 1, last := true }).put 4 { doneSet := 1, last := true }).put 5
        { doneSet := 1 } |>.put 6 { settle := 5 } }

/-- Hatch 1 with this record in the wired installation, its drive rolling, the level FRESH at `v`, and a poll of node 1
out. -/
def listens (r : HatchStatus) (v : Int) : State :=
  { rig with
      mu := { rig.mu with active := wired }, hatches := rig.hatches.put 0 r,
      signals := rig.signals.put 5 { value := v, quality := .fresh },
      fa := { avail := 200,
              units := [.step { hatch := 0, dStep := 10, actions := [(1, 60)] } [(1, 60)]] },
      dru := { rig.dru with drives := rig.dru.drives.put 1 rolling },
      flc := (awaits .readInputs []).flc }

/-- The wired installation with what the validation still asks of it: the pump's signal bound and a final closing step. -/
def checked : TableImage :=
  { wired with signal := wired.signal.put 6 { node := some 0, channel := 5 }, step := wired.step.put 24 { last := true } }

/-- Hatch 1 ACTING in the checked installation, its drive in motion with 190 of the flow of 200: 10 go to the valve. -/
def moving : State :=
  { listens acting 0 with
      mu := { rig.mu with active := checked },
      dru := { rig.dru with drives := rig.dru.drives.put 1 { rolling with alloc := 190 } } }

/-- The inputs of node 1: the position, the level and the outer end. -/
def inputs (position level outEnd : Word16) : List Word16 := [0#16, position, level, outEnd, 0#16]

/-- The reply to the poll that brings inputs. -/
def tells (l : List Word16) : Run := answers 1#8 0#8 ([1#8, byte l.length] ++ l.flatMap be16)

/-! ### One small step of each command -/

/-- R179, R164: no image in the store gives NO_TABLES with TABLE_CRC and RESET_OCCURRED. -/
theorem test_power_up_without_tables :
    (after (.powerUp 2) rig).mu.mode = .noTables ∧ (after (.powerUp 2) rig).mu.flags = 0x0500#16 := by decide +kernel

/-- R129, R167: the straps give the address, and an active pin starts its run. -/
theorem test_reset_pin_reads_the_straps :
    (after (.resetN 3) { rig with sl := { pinActive := true } }).ownAddr = 63#8 ∧
      (after (.resetN 3) { rig with sl := { pinActive := true } }).sl.run = some 5 := by decide +kernel

/-- R170: the reset is taken only while it is due. -/
theorem test_reset_device_waits_until_due :
    (after (.resetDeviceTaken 1) rig).mu.mode = .operate ∧
      (after (.resetDeviceTaken 1) { rig with mu := { rig.mu with resetPhase := .due } }).mu.mode = .noTables := by
  decide +kernel

/-- R132: the ninth frame is discarded with C_OVERRUN, and C_FRAME_ERR when it is invalid. -/
theorem test_ninth_frame_overruns :
    (after (.cFrameArrives { bytes := [0#8], framingError := false })
      { rig with cp := { rx := List.replicate 8 (.invalid [0#8] .badLead) } }).mu.flags = 0x0403#16 := by decide +kernel

/-- R69, R82: a STOP leaves a moving hatch STOPPING, its drive ramping down. -/
theorem test_stop_ramps_down :
    ((after (.stop (brings .stop [])) ((rigWith acting).setDrive 1 rolling)).hatch 0).state = .stopping ∧
      ((after (.stop (brings .stop [])) ((rigWith acting).setDrive 1 rolling)).drive 1).state = .stopping := by
  decide +kernel

/-- R69, R83: with every drive at 0 the stop ends at once, and the marker is set. -/
theorem test_stop_ends_at_once :
    ((after (.stop (brings .stop [0#8, 2#8])) (rigWith acting)).hatch 0).marker = some (.opening, 0) := by decide +kernel

/-- R165: a HOLD from the owner starts the window of a MANUAL hatch afresh. -/
theorem test_hold_restarts_the_window :
    (after (.hold (brings .hold [0#8, 2#8])) ((rigWith inManual).setWindow 0 .lapsed)).window 0 = .live 300 := by
  decide +kernel

/-- R166: a KEEP restarts the link window. -/
theorem test_keep_restarts_the_link_window :
    (after (.keep (brings .keep [])) { rig with ls := { rig.ls with link := some 7 } }).ls.link = some 2000 := by
  decide +kernel

/-- R134, Table 8-9: a MGMT_REPLY to the part is rejected with KIND_MISMATCH, reason 7, kind 4. -/
theorem test_mgmt_reply_is_rejected :
    (after .queueHeadReject (heads rig .mgmtReply 60#8 [])).cp.tx =
      [.own .notice 50#8 7#8 [1#8, 7#8, 4#8] false] := by decide +kernel

/-- Table 8-8, item 1: the part number 412, the revision 1, the address. -/
theorem test_read_identification :
    (after .readItem (asks rig [1#8, 1#8, 0#8, 0#8])).cp.tx =
      [.own .mgmtReply 50#8 7#8 [1#8, 1#8, 1#8, 0x9C#8, 1#8, 60#8] false] := by decide +kernel

/-- R162: an index out of range is BAD_ARGUMENT. -/
theorem test_read_hatch_13 :
    (after .readItem (asks rig [1#8, 4#8, 0#8, 13#8])).cp.tx = [.own .mgmtReply 50#8 7#8 [1#8, 5#8] false] := by
  decide +kernel

/-- R163, R34: a reserve above the raw flow leaves A at 0. -/
theorem test_write_reserve :
    (after .writeItem (asks { rig with fa := { avail := 160 } } [2#8, 1#8, 0#8, 50#8])).fa.avail = 0 := by decide +kernel

/-- R163: the ramp tick is not writable in OPERATE. -/
theorem test_write_ramp_tick_refused :
    (after .writeItem (asks rig [2#8, 2#8, 0#8, 50#8])).cp.tx = [.own .mgmtReply 50#8 7#8 [2#8, 3#8] false] := by
  decide +kernel

/-- R164: RESET_OCCURRED is cleared, and ESTOP_ACTIVE stays while the input is ACTIVE. -/
theorem test_clear_flags :
    (after .clearFlags (asks { rig with sl := { estop := .active } } [3#8, 0x07#8, 0xFF#8])).mu.flags = 0x0080#16 := by
  decide +kernel

/-- R179: a CLEAR_FLAGS in CONFIG leaves TABLE_CRC set until a configuration has reached OPERATE. -/
theorem test_clear_table_crc :
    (after .clearFlags (asks (after .enterConfig (asks .reset [5#8])) [3#8, 0x07#8, 0xFF#8])).mu.flags = 0x0100#16 ∧
    (after .clearFlags (asks (after (.storeComplete false) { rigIn .storing with
      mu := { (rigIn .storing).mu with flags := 0x0100#16, tableless := true } }) [3#8, 0x01#8, 0#8])).mu.flags =
        0x0200#16 := by decide +kernel

/-- R88: a hatch whose causes have cleared goes to IDLE, its marker kept. -/
theorem test_acknowledge_hatch :
    (after .acknowledgeHatches (asks (rigWith isTripped) [4#8, 0#8, 0#8, 2#8])).hatch 0 =
      { marker := some (.opening, 0) } := by decide +kernel

/-- R169: motion is released in OPERATE with ESTOP_IN RELEASED. -/
theorem test_acknowledge_device :
    (after .acknowledgeDevice (asks { rig with sl := {} } [4#8, 1#8, 0#8, 0#8])).motionEn = true := by decide +kernel

/-- R173: ENTER_CONFIG with every enabled hatch IDLE. -/
theorem test_enter_config : (after .enterConfig (asks rig [5#8])).mu.mode = .config := by decide +kernel

/-- R173: a hatch in motion refuses it, REFUSED_BUSY. -/
theorem test_enter_config_busy :
    (after .enterConfig (asks (rigWith acting) [5#8])).cp.tx = [.own .mgmtReply 50#8 7#8 [5#8, 2#8] false] := by
  decide +kernel

/-- R174: PUMP record 2 with running signal 9 and rated flow 300. -/
theorem test_load_pump :
    (after .loadRecord (asks (rigIn .config) [6#8, 2#8, 0#8, 2#8, 0#8, 9#8, 1#8, 44#8])).mu.working.pump.read 1 =
      { running := some 9, rated := 300 } := by decide +kernel

/-- R174, R46: CONDSET record 0 reads as 0 with six zero bytes. -/
theorem test_read_condset_0 :
    (after .readRecord (asks rig [7#8, 6#8, 0#8, 0#8])).cp.tx =
      [.own .mgmtReply 50#8 7#8 [7#8, 1#8, 6#8, 0#8, 0#8, 0#8, 0#8, 0#8, 0#8, 0#8, 0#8, 0#8] false] := by decide +kernel

/-- R176: an enabled hatch whose sequence has no final step fails stage 1, at table 9, record 23. -/
theorem test_leave_config_names_the_record :
    (after .leaveConfig
      (asks { rigIn .config with
                mu := { (rigIn .config).mu with
                  working := { TableImage.empty with hatch := (Tab.fill 12 {}).put 0 { enabled := true } } } }
        [8#8, 0#8, 0#8])).cp.tx = [.own .mgmtReply 50#8 7#8 [8#8, 7#8, 9#8, 0#8, 23#8] false] := by decide +kernel

/-- R170: the reset waits for the DONE reply. -/
theorem test_reset_device_accepted : (after .resetDevice (asks rig [9#8])).mu.resetPhase = .awaitingReply := by
  decide +kernel

/-- R71, R96, R110: while A is 0 the request of an OPEN waits. -/
theorem test_open_waits_for_flow :
    ((after .openHatches (orders rig [1#8, 0#8, 2#8])).hatch 0).phase = some .flowWait := by decide +kernel

/-- R99, R72, R105: with flow it is admitted, its valve opens and its drive starts, paused without a position. -/
theorem test_open_is_admitted :
    let t := after .openHatches (orders { rig with fa := { avail := 200 } } [1#8, 0#8, 2#8])
    (t.hatch 0).phase = some .acting ∧ (t.outChan 0 0).value = 1 ∧ (t.drive 1).paused = true ∧ t.fa.demand = 10 ∧
      t.fa.minimum = 60 := by decide +kernel

/-- R83: a CLOSE to the owner's opening hatch is QUEUED and stops it. -/
theorem test_close_is_queued :
    (after .closeHatches (orders ((rigWith acting).setDrive 1 rolling) [2#8, 0#8, 2#8])).hatch 0 =
      { acting with state := .stopping, phase := none, stepTimer := none, request := some (.closing, 2) } := by
  decide +kernel

/-- R96: hatch 2, which joins after hatch 5 within one event, stands before it, and behind the entry that waited. -/
theorem test_joins_ascend :
    let e := Ev.begin { rig with fa := { queue := [{ hatch := 8, dStep := 1, actions := [] }] } }
    ((e.join { hatch := 4, dStep := 1, actions := [] }).join { hatch := 1, dStep := 1, actions := [] }).st.fa.queue.map
      (·.hatch) = [8, 1, 4] := by decide +kernel

/-- R79, R77: PAUSE holds the hatch; its done set does not matter. -/
theorem test_pause_holds : (after .pause (orders (rigWith acting) [3#8, 0#8, 2#8])).hatch 0 = heldByPause := by
  decide +kernel

/-- R81: RESUME records the hold history. -/
theorem test_resume :
    (after .resume (orders (rigWith heldByPause) [4#8, 0#8, 2#8])).hatch 0 =
      { state := .running, operation := some .opening, step := some 0, phase := some .flowWait, owner := some 2,
        lastResume := some (.request, { pause := true }) } := by decide +kernel

/-- R101: without flow the reservation of 30 is REFUSED_FLOW, 12. -/
theorem test_manual_enter_refused :
    (after .manualEnter (orders rig [5#8, 0#8, 2#8])).cp.tx =
      [.own .mgmtReply 50#8 7#8 [0#8, 5#8, 1#8, 1#8, 12#8] false] := by decide +kernel

/-- R89, R97: with flow the session begins and its reservation counts in B. -/
theorem test_manual_enter :
    let t := after .manualEnter (orders { rig with fa := { avail := 30 } } [5#8, 0#8, 2#8])
    t.hatch 0 = inManual ∧ t.fa.demand = 30 ∧ t.window 0 = .live 300 := by decide +kernel

/-- R91, R159: the session ends, and a channel it drove is written neutral. -/
theorem test_manual_leave :
    let s := ((rigWith inManual).setShadow 1 1 2648).setOutChan 1 1 { value := 2648 }
    let t := after .manualLeave (orders s [6#8, 0#8, 2#8])
    t.hatch 0 = {} ∧ t.outChan 1 1 = { value := 2048, dirty := true } := by decide +kernel

/-- R156, R157, section 10.6: 2700 on a channel of span 600 is forwarded as 2648. -/
theorem test_write_is_clamped :
    let s := heads ((rigWith inManual).setWindow 0 (.live 300)) .fieldReq 2#8 [2#8, 1#8, 1#8, 0x0A#8, 0x8C#8]
    let t := after .fieldReqJudge s
    t.shadow 1 1 = 2648 ∧ t.flc.forward.map (·.payload) = [[2#8, 1#8, 1#8, 0x0A#8, 0x58#8]] := by decide +kernel

/-- Table 10-2: a write while the hatch is IDLE is BLOCKED with NOT_MANUAL, 2. -/
theorem test_write_is_blocked :
    (after .fieldReqJudge (heads rig .fieldReq 2#8 [2#8, 1#8, 1#8, 8#8, 0#8])).cp.tx =
      [.own .notice 50#8 7#8 [3#8, 1#8, 2#8] false] := by decide +kernel

/-- R130, R93: the status byte is built as the transmission starts: ANY_RUNNING, FLAGS and MOTION_EN. -/
theorem test_transmit_start :
    ((after .transmitStart { rigWith acting with cp := { tx := [.own .notice 0#8 0#8 [2#8, 5#8] false] } }).cp.sending.map
      fun x => x.bytes.take 6) = some [0x96#8, 0#8, 60#8, 0#8, 0x26#8, 2#8] := by decide +kernel

/-- R137: the frame leaves the queue when its last byte has been sent. -/
theorem test_transmit_end :
    (after .transmitEnd
      { rig with cp := { tx := [.own .notice 0#8 0#8 [2#8, 5#8] false],
                         sending := some { bytes := [], rate := .k115_2 } } }).cp = {} := by decide +kernel

/-- R153: NEUTRAL is no transaction and clears its mark. -/
theorem test_neutral_send :
    let t := after .neutralSend { rig with flc := { rig.flc with neutralPending := true } }
    t.flc.neutralPending = false ∧ t.flc.outstanding = none := by decide +kernel

/-- R146: a part write carries the dirty channels and clears their marks. -/
theorem test_part_write :
    let t := after .partWriteBegin (rig.setOutChan 0 1 { value := 2888, dirty := true })
    t.flc.outstanding.map (·.sent) = some [(1, 2888)] ∧ t.outChan 0 1 = { value := 2888 } := by decide +kernel

/-- R144, R151: the alert read clears its mark and passes the turn. -/
theorem test_alert_read :
    let t := after .alertReadBegin (rig.setNode 1 { state := .present, alertPending := true })
    (t.node 1).alertPending = false ∧ t.flc.turn = .scanPolls ∧ t.flc.tagCounter = 1#8 := by decide +kernel

/-- R142: a forwarded request keeps the console's tag. -/
theorem test_forward_begin :
    let f : Frame := { kind := .fieldReq, dest := 1#8, src := 50#8, tag := 77#8, status := 0#8, payload := [1#8] }
    let s : State := { rig with flc := { rig.flc with scan := Tab.fill 47 {}, forward := [f] } }
    (after .forwardBegin s).flc.outstanding.map (fun x => (x.tag, x.requester)) = some (77#8, .console 2) := by
  decide +kernel

/-- R145: after a reset the polled node is due; the poll clears its mark and starts its timer. -/
theorem test_scan_poll :
    (after .scanPollBegin rig).flc.scan.read 0 = { due := false, left := some 100 } ∧
      (after .scanPollBegin rig).flc.position = 1 := by decide +kernel

/-- R142: the reply timeout starts when the request has been sent. -/
theorem test_request_sent :
    (after .requestSent (after .scanPollBegin rig)).flc.outstanding.map (·.left) = some (some 5) := by decide +kernel

/-- R20, R21, R149: channel 1 of node 1 gives the value of signal 1, -2. -/
theorem test_inputs_reply :
    let t := after (.inputsReply (answers 1#8 0#8 [1#8, 2#8, 0#8, 0#8, 0xFF#8, 0xFE#8])) (awaits .readInputs [])
    t.signal 1 = { value := -2, quality := .fresh, age := 0 } ∧ (t.node 0).state = .present := by decide +kernel

/-- R150: an echo off by more than the tolerance of 8 sets READBACK_MISMATCH and trips the hatch. -/
theorem test_readback_mismatch :
    let s := (awaits .writeOutputs [(1, 2888)]).setHatch 0 acting
    let t := after (.outputsReply (answers 1#8 0#8 [2#8, 1#8, 1#8, 0x0B#8, 0x51#8])) s
    t.flag .readbackMismatch = true ∧ (t.hatch 0).firstTrip = some .readback := by decide +kernel

/-- R150: an echo off by the tolerance matches. -/
theorem test_readback_match :
    let s := (awaits .writeOutputs [(1, 2888)]).setHatch 0 acting
    (after (.outputsReply (answers 1#8 0#8 [2#8, 1#8, 1#8, 0x0B#8, 0x50#8])) s).hatch 0 = acting := by decide +kernel

/-- R151, R152: the sixth reply in a row with ALERT saturates the node. -/
theorem test_status_reply_saturates :
    let s := (awaits .readStatus []).setNode 0 { state := .present, alertRun := 5, alertPending := true }
    let t := after (.statusReply (answers 1#8 0x80#8 [3#8, 0x12#8, 0x34#8])) s
    t.node 0 = { state := .present, alertRun := 6, saturated := true, faultWord := 0x1234#16, sinceReply := 0 } ∧
      t.flag .alertSat = true := by decide +kernel

/-- R143: a reply with another tag is discarded with F_FRAME_ERR. -/
theorem test_stray_frame :
    (after (.fFrameDiscard (answers 1#8 0#8 [1#8, 0#8])) (awaits .readStatus [])).flag .fFrameErr = true := by
  decide +kernel

/-- R148: the third miss declares the node LOST and trips the bound hatch. -/
theorem test_third_miss :
    let s := ((awaits .readInputs []).setHatch 0 acting).setNode 0 { state := .present, misses := 2 }
    let t := after .replyTimeout s
    (t.node 0).state = .lost ∧ (t.hatch 0).firstTrip = some .nodeLost := by decide +kernel

/-- R25: the loss of its node makes a signal INVALID. -/
theorem test_lost_node_invalidates :
    ((after .replyTimeout ((awaits .readInputs []).setNode 0 { state := .present, misses := 2 })).signal 1).quality =
      .invalid := by decide +kernel

/-- R145: a scan timer that runs out makes the node due. -/
theorem test_scan_timer :
    ((after (.scanTimerExpiry 0) (after .scanPollBegin rig)).flc.scan.read 0).due = true := by decide +kernel

/-- R147: a refresh marks every OWNED channel when one is driven. -/
theorem test_refresh :
    let t := after (.refreshTimerExpiry 0) (rig.setOutChan 0 0 { value := 1 })
    t.outChan 0 0 = { value := 1, dirty := true } ∧ t.outChan 0 1 = { value := 2048, dirty := true } := by
  decide +kernel

/-- R24, R34: the running signal of the pump goes STALE, and A falls to 0. -/
theorem test_pump_signal_ages :
    let s := { rig with fa := { avail := 160 }, signals := rig.signals.put 6 { value := 1, quality := .fresh, age := 1000 } }
    let t := after (.signalAgeExpiry [6]) s
    t.signal 6 = { value := 1, quality := .stale } ∧ t.fa.avail = 0 := by decide +kernel

/-- R74, R86: the step timer trips the hatch, with the marker at its step. -/
theorem test_step_timeout :
    (after (.stepTimeout 0) (rigWith acting)).hatch 0 = { isTripped with phase := none } := by decide +kernel

/-- R75, R71: the settle timer ends step 0 and step 1, which is attended, is entered. -/
theorem test_settle_expiry :
    let t := after (.settleExpiry 0) (rigWith { acting with phase := some .settling, settleTimer := some 1 })
    (t.hatch 0).step = some 1 ∧ t.window 0 = .live 300 := by decide +kernel

/-- R76: the settle timer of the final step completes the operation. -/
theorem test_settle_completes :
    (after (.settleExpiry 0)
      (rigWith { acting with step := some 1, phase := some .settling, settleTimer := some 1 })).hatch 0 = {} := by
  decide +kernel

/-- R119, R122, Table 7-4: the fourth tick. -/
theorem test_ramp_tick : (after .rampTick (rig.setDrive 1 rolling)).drive 1 = { rolling with c := 97, code := 2888 } := by
  decide +kernel

/-- R165: a window that runs out holds a RUNNING hatch on an attended step. -/
theorem test_hold_window :
    ((after (.holdWindowExpiry 0) ((rigWith { acting with step := some 1 }).setWindow 0 (.live 1))).hatch 0).active =
      { holdLapse := true } := by decide +kernel

/-- R166: the first expiry sets LINK_LAPSE and leaves motion released. -/
theorem test_link_window :
    let t := after .linkWindowExpiry (rigWith acting)
    t.ls.lapse = true ∧ t.motionEn = true ∧ (t.hatch 0).active = { linkLapse := true } := by decide +kernel

/-- R166, R168: the next one is a hard stop. -/
theorem test_link_lost :
    let t := after .linkWindowExpiry { rigWith acting with ls := { rig.ls with lapse := true } }
    t.motionEn = false ∧ (t.hatch 0).firstTrip = some .linkLost := by decide +kernel

/-- R167: an active level starts a run of 5 ms. -/
theorem test_estop_in : (after (.estopInChange true) rig).sl.run = some 5 := by decide +kernel

/-- R168: the hard stop brings a drive to rest at once, its channel neutral and dirty. -/
theorem test_estop_active :
    let s := (rigWith acting).setDrive 1 rolling
    let t := after .estopDebounceActive
      { s with sl := { pinActive := true, run := some 5, motionReleased := true },
               oir := (s.setOutChan 0 1 { value := 2932 }).oir }
    t.drive 1 = {} ∧ t.outChan 0 1 = { value := 2048, dirty := true } ∧ (t.hatch 0).firstTrip = some .estopInput := by
  decide +kernel

/-- R167: the release asserts nothing. -/
theorem test_estop_released :
    let t := after .estopDebounceReleased { rig with sl := { estop := .active, run := some 50 } }
    t.sl.estop = .released ∧ t.motionEn = false := by decide +kernel

/-- R178: a failure sets STORE_FAULT and still reaches OPERATE. -/
theorem test_store_failure :
    (after (.storeComplete false) (rigIn .storing)).mu.mode = .operate ∧
      (after (.storeComplete false) (rigIn .storing)).flag .storeFault = true := by decide +kernel

/-- R178: 400 ms without success is a failure; the reference CRC stays invalid. -/
theorem test_store_timeout :
    let t := after .storeWriteTimeout (rigIn .storing)
    t.flag .storeFault = true ∧ t.mu.store.crc = none := by decide +kernel

/-- Log entry 2: a step on an empty queue is one millisecond. -/
theorem test_idle_step :
    (match step (rigWith acting) with
      | .next t => (t.hatch 0).stepTimer
      | .fault _ | .refused _ => none) = some 4999 := by decide +kernel

/-! ### Witnesses: states and operands that meet the hypotheses of the statements -/

/-- The state a step answers. -/
abbrev steps (s : State) (c : Instr) : Prop := ∃ t, step { s with pending := [c] } = .next t

theorem witness_EmptyQueueLetsOneMillisecondPass : rig.pending = [] := by decide +kernel

theorem witness_EveryStepKeepsTheQueuesBounded :
    ({ rig with pending := [.rampTick] } : State).QueuesBounded ∧ steps rig .rampTick :=
  ⟨by unfold State.QueuesBounded; decide +kernel, _, rfl⟩

/-- A RUNNING hatch with motion released, and a drive to move. -/
theorem witness_EveryStepKeepsMotionSafe :
    ({ rigWith acting with pending := [.rampTick] } : State).MotionSafe ∧ steps (rigWith acting) .rampTick :=
  ⟨⟨by decide +kernel, by decide +kernel, by decide +kernel⟩, _, rfl⟩

/-- A queued write to a channel of a MANUAL hatch, its window live. -/
def queuedWrite : State :=
  { (rigWith inManual).setWindow 0 (.live 300) with
      flc := { rig.flc with
        forward := [{ kind := .fieldReq, dest := 2#8, src := 50#8, tag := 7#8, status := 0#8,
                      payload := [2#8, 1#8, 1#8, 8#8, 0#8] }] },
      pending := [.stop (brings .stop [])] }

/-- What neutralising meets: a channel of the hatch on no bound actuator, its shadow and its value not neutral, and the one
frame queued for it; for StopActsOnEachNamedHatch, ManualSessionIsEnteredAndLeft, ReplyTimeoutCountsAMiss,
TakenReplyActsByItsFunction, HoldWindowExpiryHoldsOrNeutralises, LinkWindowExpiryLapsesThenStops and
FlowIsTakenAndGivenBackInOrder. -/
theorem witness_Neutralised :
    let s := (queuedWrite.setOutChan 1 1 { value := 2300 }).setShadow 1 1 2300
    ((s.image.chan 1 1).cls = .guarded ∧ (s.image.chan 1 1).hatch = 0 ∧ s.image.neutralOf 1 1 = 2048 ∧
      s.shadow 1 1 = 2300 ∧ (s.outChan 1 1).value = 2300) ∧ s.undriven 1 1 ∧
    (∃ x, s.BlockedNotice 0 4#8 x) ∧ (∃ x, s.BlockedNotice 0 2#8 x) ∧ s.cp.tx = [] ∧ s.fa.queue = [] ∧
    (s.hatch 0).state = .manual ∧ (∀ k, k ≠ 0 → (s.hatch k).state = .idle) ∧ s.image.boundNode 0 0 = true := by
  have notice : ∀ reason, ∃ x,
      ((queuedWrite.setOutChan 1 1 { value := 2300 }).setShadow 1 1 2300).BlockedNotice 0 reason x := fun reason =>
    ⟨_, { kind := .fieldReq, dest := 2#8, src := 50#8, tag := 7#8, status := 0#8,
          payload := [2#8, 1#8, 1#8, 8#8, 0#8] }, 1, 2, [], (1, 2048), [], rfl, by decide, by decide, by decide, nofun,
      by decide +kernel, by decide +kernel, rfl⟩
  refine ⟨by decide +kernel, by unfold State.undriven; decide +kernel, notice _, notice _, by decide +kernel,
    by decide +kernel, by decide +kernel, by decide +kernel, by decide +kernel⟩

theorem witness_EveryStepKeepsForwardedFramesAllowed :
    queuedWrite.MotionSafe ∧ queuedWrite.ForwardSafe ∧ ∃ t, step queuedWrite = .next t := by
  refine ⟨⟨by decide +kernel, by decide +kernel, by decide +kernel⟩, ?_, _, rfl⟩
  intro f h
  have : f = { kind := .fieldReq, dest := 2#8, src := 50#8, tag := 7#8, status := 0#8,
               payload := [2#8, 1#8, 1#8, 8#8, 0#8] } := List.mem_singleton.mp h
  subst this
  refine ⟨rfl, by decide, by decide, 1, by decide, ?_⟩
  have key : framePairs { kind := .fieldReq, dest := 2#8, src := 50#8, tag := 7#8, status := 0#8,
                          payload := [2#8, 1#8, 1#8, 8#8, 0#8] } = [(1, 2048)] := by decide
  rw [key]
  intro p hp
  rw [List.mem_singleton.mp hp]
  unfold State.mayDrive
  rw [show (queuedWrite.image.chan 1 1).cls = .guarded by decide +kernel]
  decide +kernel

/-- One hatch waits and one acts. -/
def waitsAndActs : State :=
  { (rigWith acting).setHatch 1 { acting with phase := some .flowWait } with
      fa := { avail := 200, queue := [{ hatch := 1, dStep := 5, actions := [] }],
              units := [.step { hatch := 0, dStep := 10, actions := [(1, 60)] } [(1, 60)]] },
      pending := [.stepTimeout 0] }

/-- The second hatch of `waitsAndActs` enabled too. -/
def bothEnabled : State :=
  { waitsAndActs with
      mu := { waitsAndActs.mu with
        active := { hall with hatch := hall.hatch.put 1 { enabled := true } } } }

theorem witness_EveryStepKeepsFlowMatched :
    bothEnabled.MotionSafe ∧ bothEnabled.StepsNamed ∧ bothEnabled.FlowMatched ∧ ∃ t, step bothEnabled = .next t := by
  refine ⟨⟨by decide +kernel, by decide +kernel, by decide +kernel⟩, by unfold State.StepsNamed; decide +kernel,
    ⟨by decide +kernel, by decide +kernel, ?_, ?_, by decide +kernel⟩, _, rfl⟩
  · intro r l h
    obtain ⟨rfl, -⟩ := FlowUnit.step.inj (List.mem_singleton.mp h)
    decide +kernel
  · intro h v m
    cases List.mem_singleton.mp m

/-- Hatch 1 with its four seat and end switches FRESH, both seats true, and no cleat bound. -/
def seated : State :=
  { rig with
      mu := { rig.mu with
        active := { hall with
          hatch := (Tab.fill 12 {}).put 0
            { enabled := true,
              sigs := ((((Tab.fill 20 none).put 4 (some 0)).put 5 (some 1)).put 6 (some 2)).put 7 (some 3) } } },
      signals := (((rig.signals.put 0 { value := 1, quality := .fresh }).put 1 { value := 1, quality := .fresh }).put 2
        { quality := .fresh }).put 3 { quality := .fresh },
      hatches := rig.hatches.put 0 { rest := .closedSecured } }

theorem witness_EveryStepKeepsTheRestStates : seated.RestFollows ∧ steps seated .rampTick := by
  have unbound : ∀ x : ActRole, (seated.hatchRec 0).actuatorOf x = none := by
    intro x
    cases x <;> decide +kernel
  have others : ∀ h, h ≠ 0 → seated.enabled h = false ∧ (seated.hatch h).rest = .unknown := by decide +kernel
  have left : (seated.hatchRec 0).signalOf .pSeated = some 0 ∧ (seated.hatchRec 0).signalOf .sSeated = some 1 ∧
      (seated.hatchRec 0).signalOf .pOpenEnd = some 2 ∧ (seated.hatchRec 0).signalOf .sOpenEnd = some 3 := by
    decide +kernel
  have fresh : ∀ i : SignalId, i.val < 4 → (seated.signal i).quality = .fresh := by decide +kernel
  have values : (seated.signal 0).value = 1 ∧ (seated.signal 1).value = 1 := by decide +kernel
  refine ⟨fun h => ?_, _, rfl⟩
  by_cases first : h = 0
  · subst first
    refine ⟨fun unknown => ?_, fun _ _ => ⟨fun _ _ => by decide +kernel, fun _ notFull => ?_, fun notSeated => ?_,
      fun notSeated => ?_⟩⟩
    · refine unknown.elim (fun off => absurd off (by decide +kernel)) fun no => absurd ⟨?_, ?_⟩ no
      · intro x hx
        simp only [List.mem_cons, List.not_mem_nil, or_false] at hx
        obtain rfl | rfl | rfl | rfl := hx
        · exact ⟨0, left.1, fresh 0 (by decide), trivial⟩
        · exact ⟨1, left.2.1, fresh 1 (by decide), trivial⟩
        · exact ⟨2, left.2.2.1, fresh 2 (by decide), trivial⟩
        · exact ⟨3, left.2.2.2, fresh 3 (by decide), trivial⟩
      · exact fun x y _ bound => absurd (unbound x) bound
    · exact absurd (fun x y a _ bound => absurd ((unbound x).symm.trans bound) (by simp)) notFull
    all_goals
      exact absurd ⟨⟨0, left.1, fresh 0 (by decide), by rw [values.1]; decide⟩,
        ⟨1, left.2.1, fresh 1 (by decide), by rw [values.2]; decide⟩⟩ notSeated
  · exact ⟨fun _ => (others h first).2, fun on => absurd on (by rw [(others h first).1]; decide)⟩

/-- Flow that fits; and A at 160 by a running pump of 200 and the reserve of 40, its signal about to be STALE. -/
theorem witness_EveryStepKeepsAdmittedFlowWithinA :
    (waitsAndActs.FlowFits ∧ ∃ t, step waitsAndActs = .next t) ∧
    let s : State :=
      { rig with
          signals := rig.signals.put 6 { value := 1, quality := .fresh }, fa := { avail := 160 },
          pending := [.signalAgeExpiry [6]] }
    s.AvailFollows ∧ ∃ t, step s = .next t ∧ t.fa.avail = 0 :=
  ⟨⟨by unfold State.FlowFits; decide +kernel, _, rfl⟩, by unfold State.AvailFollows; decide +kernel, _, rfl,
    by decide +kernel⟩

/-- A hatch ACTING with a valve and a drive, its allocation that of R105. -/
theorem witness_EveryStepKeepsTheAllocations :
    let s : State := { moving with pending := [.rampTick] }
    (s.MotionSafe ∧ s.StepsNamed ∧ s.FlowMatched ∧ s.FlowFits) ∧ s.TablesPass ∧ s.AllocationsFollow ∧
      s.fa.motion = [(1, 60)] ∧ (s.drive 1).alloc = 190 ∧ ∃ t, step s = .next t := by
  have unit : ∀ q l, FlowUnit.step q l ∈ moving.fa.units →
      q = { hatch := 0, dStep := 10, actions := [(1, 60)] } ∧ l = [(1, 60)] :=
    fun _ _ m => FlowUnit.step.inj (List.mem_singleton.mp m)
  refine ⟨⟨⟨by decide +kernel, by decide +kernel, by decide +kernel⟩, by unfold State.StepsNamed; decide +kernel,
    ⟨by decide +kernel, by decide +kernel, ?_, ?_, by decide +kernel⟩, by unfold State.FlowFits; decide +kernel⟩,
    ⟨fun _ => by decide +kernel, nofun⟩, ⟨?_, ?_, nofun, ?_, by decide +kernel⟩, by decide +kernel, by decide +kernel,
    _, rfl⟩
  · intro q l m
    obtain ⟨rfl, -⟩ := unit q l m
    decide +kernel
  · intro h v m
    cases List.mem_singleton.mp m
  · intro _ h o n _ inMotion ho hn
    have only : ∀ h, ((moving.hatch h).operation, (moving.hatch h).step) =
        if h = 0 then (some .opening, some 0) else (none, none) := by decide +kernel
    have at0 := only h
    split at at0
    · rename_i first
      subst first
      obtain ⟨e1, e2⟩ := Prod.mk.inj at0
      cases ho.symm.trans e1
      cases hn.symm.trans e2
      exact ⟨⟨0, by decide +kernel, rfl⟩, fun m low => absurd low (Nat.not_lt_zero _)⟩
    · cases (Prod.mk.inj at0).2.symm.trans hn
  · intro _ h o n _ marked
    have none : ∀ h, (moving.hatch h).marker = none := by decide +kernel
    cases (none h).symm.trans marked
  · intro q l m
    obtain ⟨rfl, rfl⟩ := unit q l m
    exact ⟨⟨moving.stepRec 0 .opening 0, by decide +kernel, by decide +kernel⟩, List.Sublist.refl _, by decide +kernel⟩

/-- By CLEAR_FLAGS, and by a reset. -/
theorem witness_StickyFlagsStayUntilClearedOrReset :
    (∃ t, step { asks rig [3#8, 7#8, 0xFF#8] with pending := [.clearFlags] } = .next t ∧
      rig.flag .resetOccurred = true ∧ t.flag .resetOccurred = false) ∧
    ∃ t, step { rig.setFlag .storeFault with pending := [.resetN 0] } = .next t ∧
      (rig.setFlag .storeFault).flag .storeFault = true ∧ t.flag .storeFault = false :=
  ⟨⟨_, rfl, by decide +kernel, by decide +kernel⟩, _, rfl, by decide +kernel, by decide +kernel⟩

theorem witness_OnlyDeviceAcknowledgeReleasesMotion :
    ∃ t, step { asks { rig with sl := {} } [4#8, 1#8, 0#8, 0#8] with pending := [.acknowledgeDevice] } = .next t ∧
      ({ rig with sl := {} } : State).motionEn = false ∧ t.motionEn = true := ⟨_, rfl, by decide +kernel, by decide +kernel⟩

/-- A TRIPPED hatch that an acknowledgement takes to IDLE. -/
theorem witness_TrippedIsLeftOnlyByAcknowledgeOrReset :
    (asks (rigWith isTripped) [4#8, 0#8, 0#8, 2#8]).MotionSafe ∧ ((rigWith isTripped).hatch 0).state = .tripped ∧
    ∃ t, step { asks (rigWith isTripped) [4#8, 0#8, 0#8, 2#8] with pending := [.acknowledgeHatches] } = .next t ∧
      (t.hatch 0).state = .idle :=
  ⟨⟨by decide +kernel, by decide +kernel, by decide +kernel⟩, by decide +kernel, _, rfl, by decide +kernel⟩

/-- A LOAD_RECORD that changes the tables, and a store write that fails. -/
theorem witness_TablesAndStoreChangeOnlyWhereStated :
    (∃ t, step { asks (rigIn .config) [6#8, 2#8, 0#8, 4#8, 0#8, 9#8, 1#8, 44#8] with pending := [.loadRecord] } = .next t ∧
      t.image.pump.read 3 ≠ (rigIn .config).image.pump.read 3) ∧
    ∃ t, step { rigIn .storing with
                  mu := { (rigIn .storing).mu with store := { crc := some 0#16 } }, pending := [.storeWriteTimeout] } =
        .next t ∧ t.mu.store.crc = none :=
  ⟨⟨_, rfl, by decide +kernel⟩, _, rfl, by decide +kernel⟩

/-- The longest payload, a lead byte whose nibbles are not complementary, other CRC bytes, and a cut at either end; the
lead bytes of the kinds 0, 11 and 15, and a length byte of 49 after those of the kinds 1 and 10. -/
theorem witness_EncodedFrameIsReceivedAsItself :
    (List.replicate 48 0xAA#8).length ≤ 48 ∧ (0x00#8).extractLsb' 4 4 ≠ ~~~ ((0x00#8).extractLsb' 0 4) ∧
      (let f : Frame := { kind := .keep, dest := 60#8, src := 50#8, tag := 7#8, status := 0#8, payload := [] }
       [0#8, 0#8].length = 2 ∧ [0#8, 0#8] ≠ f.encode.drop (6 + f.payload.length) ∧ 1 < f.encode.length ∧
         7 < f.encode.length ∧ f.encode.length = 8) ∧
      ([0x0F#8, 0xB4#8, 0xF0#8, 0x1E#8, 0xA5#8].map fun (lead : Byte) =>
        ((lead.extractLsb' 4 4).toNat, lead.extractLsb' 4 4 == ~~~ (lead.extractLsb' 0 4))) =
          [(0, true), (11, true), (15, true), (1, true), (10, true)] ∧
      [60#8, 50#8, 7#8, 0#8, 49#8][4]? = some 49#8 := by decide +kernel

/-- A record of each table, at the highest index of each. -/
theorem witness_LoadedRecordReadsBackAsItself :
    ([(1, 0), (2, 4), (3, 47), (5, 127), (6, 63), (7, 95), (9, 191)].all fun (p : Nat × Nat) =>
      ((TableImage.empty.recordBytes p.1 p.2).bind (decodeRecord p.1 p.2)).isSome) = true ∧
    (decodeRecord 4 255 [47#8, 15#8, 2#8, 8#8, 0x13#8, 0x88#8]).isSome = true ∧
    ((TableImage.empty.recordBytes 8 12).bind (decodeRecord 8 12)).isSome = true := by decide +kernel

/-- The reset of an accepted RESET_DEVICE, due; a store with an image and one without. -/
theorem witness_EveryResetSetsTheFieldLineAndTheOutputs :
    ({ rig with mu := { rig.mu with resetPhase := .due } } : State).mu.resetPhase = .due := by decide +kernel

theorem witness_EveryResetSetsTheOtherBlocks :
    ({ rig with mu := { rig.mu with resetPhase := .due } } : State).mu.resetPhase = .due ∧
    (∃ st : Store, st.crc = some st.image.crc) ∧ rig.mu.store.crc = none :=
  ⟨by decide +kernel, ⟨{ crc := some TableImage.empty.crc }, rfl⟩, by decide +kernel⟩

/-- A valid and an invalid run at a queue of 7 frames and at a queue of 8. -/
theorem witness_ArrivalJoinsTheReceiveQueue :
    rig.urgentOf (brings .keep [1#8]) = none ∧ (validFrame (brings .keep [1#8])).isSome = true ∧
    rig.urgentOf { bytes := [0#8], framingError := false } = none ∧
    checkRun { bytes := [0#8], framingError := false } = .invalid .badLead ∧
    ({ rx := List.replicate 7 (.invalid [0#8] .badLead) } : ConsolePort).rx.length < 8 ∧
    8 ≤ ({ rx := List.replicate 8 (.invalid [0#8] .badLead) } : ConsolePort).rx.length := by decide +kernel

theorem witness_UrgentFramesAndKeep :
    rig.urgentOf (brings .keep []) = some .keep ∧ rig.urgentOf (brings .stop []) = some (.stop allHatches) ∧
      rig.urgentOf (brings .hold [0#8, 2#8]) = some (.hold 2 [0]) := by decide +kernel

/-- A named hatch in each of the states, and one not named. -/
theorem witness_StopActsOnEachNamedHatch :
    rig.urgentOf (brings .stop [0#8, 2#8]) = some (.stop [0]) ∧ rig.enabled 0 = true ∧
    ((rigWith acting).hatch 0).state = .running ∧ ((rigWith heldByPause).hatch 0).state = .held ∧
    ((rigWith { acting with state := .stopping }).hatch 0).state = .stopping ∧
    ((rigWith inManual).hatch 0).state = .manual ∧ ((rigWith isTripped).hatch 0).state = .tripped ∧
    (rig.hatch 0).state = .idle ∧ rig.enabled 1 = false ∧ (rig.hatch 1).waiting = false := by decide +kernel

/-- An entry to HELD or STOPPING with a valve and a drive that the hatch alone uses: the drive moves, or has no flow; for
StopActsOnEachNamedHatch, OwnersRequestFillsThePendingSlot, PauseHoldsAndResumeReenters,
HoldWindowExpiryHoldsOrNeutralises and LinkWindowExpiryLapsesThenStops. -/
theorem witness_OutputsWithdrawn :
    (moving.soleChannel 0 0 ∧ moving.soleDrive 0 1) ∧
    moving.stepBinary 0 (moving.stepRec 0 .opening 0) = [(0, 1)] ∧ moving.propActs 0 = [1] ∧
    moving.setHolds 0 (moving.stepRec 0 .opening 0).tripSet = true ∧
    (moving.drive 1).state = .inMotion ∧ (moving.drive 1).c = 105 ∧
    ((moving.setDrive 1 { rolling with c := 0 }).drive 1).c = 0 := by
  refine ⟨by unfold State.soleChannel State.soleDrive; decide +kernel, by decide +kernel, by decide +kernel,
    by decide +kernel, by decide +kernel, by decide +kernel, by decide +kernel⟩

/-- HELD on an attended step by HOLD_LAPSE alone, by another cause too, with a latched cause; RUNNING; MANUAL; and a
hatch the source does not own. -/
theorem witness_HoldFromTheOwnerRestartsTheWindow :
    rig.urgentOf (brings .hold [0#8, 2#8]) = some (.hold 2 [0]) ∧ rig.enabled 0 = true ∧
    ((rigWith inManual).hatch 0).owner = some 2 ∧
    (rigWith { acting with step := some 1 }).onAttended 0 = true ∧
    (rigWith { heldByPause with step := some 1, active := { holdLapse := true }, latched := {} }).onAttended 0 = true ∧
    ({ ({ holdLapse := true } : HoldSet) with holdLapse := false } : HoldSet) = {} ∧
    ({ ({ holdLapse := true, pause := true } : HoldSet) with holdLapse := false } : HoldSet) ≠ {} ∧
    ((rigWith { inManual with owner := some 3 }).hatch 0).owner ≠ some 2 := by decide +kernel

/-- A hatch that waits for flow on an attended step, the only one that a HOLD names. -/
theorem witness_Hold_waiting :
    let s := rigWith { acting with step := some 1, phase := some .flowWait }
    (s.hatch 0).state = .running ∧ s.onAttended 0 = true ∧ (s.hatch 0).owner = some 2 ∧
    ∀ k ∈ [(0 : Hatch)], k ≠ 0 → (s.hatch k).state ≠ .held := by decide +kernel

/-- Every line of Table 8-2. -/
theorem witness_QueueHeadIsServedOrRejected :
    let invalid := RxEntry.invalid [0#8] .badLead
    ({ rig with cp := { rx := [invalid] } } : State).headService = some (.reject invalid .badLead) ∧
    (asks rig [5#8]).headService = some (.mgmt 2 7#8 .enterConfig) ∧
    (orders rig [3#8, 0#8, 2#8]).headService = some (.operate 2 7#8 .pause [0]) ∧
    (heads rig .fieldReq 1#8 [1#8]).headService.isSome = true ∧
    ({ heads rig .fieldReq 1#8 [1#8] with
        flc := { rig.flc with forward := List.replicate 8 { kind := .fieldReq, dest := 1#8, src := 50#8, tag := 0#8,
                                                            status := 0#8, payload := [1#8] } } } : State).headService =
      none ∧
    ([heads rig .mgmtReq 60#8 [], heads rig .operate 60#8 [], heads rig .stop 60#8 [1#8], heads rig .keep 60#8 [1#8],
        heads rig .neutral 60#8 [], heads rig .fieldReq 1#8 [9#8], heads rig .fieldReq 47#8 [1#8],
        heads rig .keep 1#8 [], heads rig .keep 61#8 []].all fun (s : State) =>
      match s.headService with
      | some (.reject _ _) => true
      | _ => false) = true ∧
    consoleAt 48 = some 0 ∧ consoleAt 59 = some 11 ∧ consoleAt 47 = none ∧ consoleAt 60 = none ∧
    (headerOf ((brings .keep []).bytes)).isSome = true ∧ headerOf [0#8] = none := by decide +kernel

/-- The transmitter at rest and the transmitter sending. -/
theorem witness_FramesAreOfferedAndTransmittedInOrder :
    let s : State := { rig with cp := { tx := [.own .notice 0#8 0#8 [2#8, 5#8] false] } }
    s.cp.tx = [.own .notice 0#8 0#8 [2#8, 5#8] false] ∧ s.cp.sending = none ∧
      (after .transmitStart s).cp.sending.isSome = true ∧ (after .transmitStart s).cp.tx = s.cp.tx := by decide +kernel

theorem witness_ReadingsAnswerAndChangeNothing :
    (asks rig [1#8, 7#8, 1#8, 1#8]).headMgmt = some (2, 7#8, .readItem 7 257) ∧
    (asks rig [7#8, 9#8, 0#8, 191#8]).headMgmt = some (2, 7#8, .readRecord 9 191) ∧ rig.fa.queue.length < 1 ∧
    256 + rig.fa.units.length < 268 := by decide +kernel

/-- A waiting request, a step unit and a reservation. -/
theorem witness_Readings_flow :
    (waitsAndActs.fa.queue[0]?).isSome = true ∧
    waitsAndActs.fa.units[0]? = some (.step { hatch := 0, dStep := 10, actions := [(1, 60)] } [(1, 60)]) ∧
    [FlowUnit.manual 1 30][0]? = some (.manual 1 30) := by decide +kernel

/-- A BINARY and a PROPORTIONAL actuator in use and one of each not in use, a channel value of one byte, and a drive in
motion. -/
theorem witness_Readings_actuators :
    (hall.hatch.read 0).actuatorOf .pJack = some 0 ∧ (hall.hatch.read 0).actuatorOf .pDrive = some 1 ∧
    (hall.actuator.read 0).kind = .binary { demand := 10 } ∧ (hall.actuator.read 1).kind = .proportional drive4 ∧
    (∀ h, (1 : ActId) ∈ (hall.hatch.read h).actIds → h = 0) ∧ (∀ h, (2 : ActId) ∉ (hall.hatch.read h).actIds) ∧
    rig.actValue 0 < 256 ∧ ((rig.setDrive 1 rolling).drive 1).speed = some 300 := by decide +kernel

/-- The heel limit written while a drive of one hatch is in motion, its position FRESH or not. -/
theorem witness_WriteItem_reforms :
    (asks moving [2#8, 10#8, 0#8, 100#8]).headMgmt = some (2, 7#8, .writeItem 10 100) ∧
    moving.mu.mode = .operate ∧ moving.enabled 0 = true ∧ (1 : ActId) ∈ (moving.hatchRec 0).actIds ∧
    (∀ k, k ≠ 0 → (1 : ActId) ∉ (moving.hatchRec k).actIds) ∧
    (moving.image.actuator.read 1).kind = .proportional drive4 ∧ (moving.drive 1).state = .inMotion ∧
    (moving.drive 1).direction = some .outward ∧ (moving.drive 1).speed = some 300 ∧
    (moving.drive 1).stopPosition = some 14500 ∧ moving.position 0 drive4 = none ∧
    ({ moving with signals := moving.signals.put 1 { value := 5, quality := .fresh } } : State).position 0 drive4 =
      some 5 := by decide +kernel

/-- Each mode, and a value in and out of its range. -/
theorem witness_WriteItemPlacesOneGlobalField :
    (asks rig [2#8, 1#8, 3#8, 0xFF#8]).headMgmt = some (2, 7#8, .writeItem 1 1023) ∧ rig.mu.mode = .operate ∧
    (rigIn .config).mu.mode = .config ∧ (rigIn .storing).mu.mode = .storing ∧ globalFieldOk 1 1023 ∧
    ¬ globalFieldOk 1 1024 ∧ globalFieldOk 9 63 ∧ globalFieldOk 10 1500 ∧ globalFieldOk 2 100 ∧ globalFieldOk 4 0 ∧
    globalFieldOk 11 255 ∧ globalFieldOk 11 0xFFFF ∧ globalFieldOk 8 1 ∧ globalFieldOk 12 2 ∧ globalFieldOk 13 0 := by
  refine ⟨by decide +kernel, by decide +kernel, by decide +kernel, by decide +kernel, ?_⟩
  simp [globalFieldOk]

/-- A GLOBAL record at its defaults, in range, one with a ramp tick of 0, and a store never written. -/
theorem witness_GlobalFieldsKeepTheirRanges :
    (rigIn .config).mu.mode = .config ∧
    (rigIn .config).loadResult 1 0 (encodeGlobal {}) = .done ∧
    (rigIn .config).loadResult 1 0 (encodeGlobal { rampTick := 0 }) = .badArgument ∧
    State.reset.mu.store.crc ≠ some State.reset.mu.store.image.crc := by
  exact ⟨by decide +kernel, by decide +kernel, by decide +kernel, nofun⟩

theorem witness_ClearFlagsClearsTheNamedFlags :
    (asks rig [3#8, 7#8, 0xFF#8]).headMgmt = some (2, 7#8, .clearFlags 0x07FF#16) ∧
    (rigIn .storing).mu.mode = .storing ∧ rig.mu.mode ≠ .storing := by decide +kernel

/-- A hatch accepted, one whose cause stands, one not TRIPPED, one not enabled, and a mask with a bit above 12. -/
theorem witness_AcknowledgeClearsTrippedHatches :
    (asks (rigWith isTripped) [4#8, 0#8, 0#8, 6#8]).headMgmt = some (2, 7#8, .acknowledge 0 0#8 6#8) ∧
    parseMask 0#8 6#8 = some [0, 1] ∧ parseMask 0x20#8 0#8 = none ∧
    (rigWith isTripped).ackResult 0 = .done ∧
    ({ rigWith { isTripped with trips := { estopInput := true } } with sl := { estop := .active } } : State).ackResult 0 =
      .refusedCondition ∧
    rig.ackResult 0 = .refusedState ∧ rig.ackResult 1 = .badArgument := by decide +kernel

/-- Scope 1 and scope 2, and a hatch that LINK_LAPSE alone holds. -/
theorem witness_AcknowledgeDeviceReleasesMotion :
    (asks rig [4#8, 1#8, 0#8, 0#8]).headMgmt = some (2, 7#8, .acknowledge 1 0#8 0#8) ∧
    (asks rig [4#8, 2#8, 0#8, 0#8]).headMgmt = some (2, 7#8, .acknowledge 2 0#8 0#8) ∧
    let s : State := { rigWith { heldByPause with active := { linkLapse := true }, latched := {} } with
                        ls := { rig.ls with lapse := true } }
    s.ls.lapse = true ∧ s.enabled 0 = true ∧ (s.hatch 0).state = .held ∧ (s.hatch 0).latched = {} ∧
      (s.currentStep 0).isSome = true := by decide +kernel

/-- A frame at the head that asks for LEAVE_CONFIG is served as such. -/
theorem leaveConfig_is_served (s : State) (f : Frame) (rest : List RxEntry) (crc : Word16) (head : s.cp.rx = .valid f :: rest)
    (phase : s.mu.resetPhase = .inactive) (source : consoleAt f.srcAddr = some 2)
    (own : f.destAddr = addrOf s.ownAddr) (kind : f.kind = .mgmtReq)
    (form : parseMgmt f.payload = some (.leaveConfig crc)) : s.headMgmt = some (2, f.tag, .leaveConfig crc) := by
  simp [State.headMgmt, State.headService, State.serviceFor, ownService, head, phase, source, own, kind, form]

/-- A CRC that the working image has. -/
theorem witness_ConfigIsEnteredAndLeftByRequest :
    (asks rig [5#8]).headMgmt = some (2, 7#8, .enterConfig) ∧ rig.mu.mode = .operate ∧ rig.allIdle = true ∧
    (rigWith acting).allIdle = false ∧ (rigIn .noTables).mu.mode = .noTables ∧
    (asks rig [8#8, 0x12#8, 0x34#8]).headMgmt = some (2, 7#8, .leaveConfig 0x1234#16) ∧
    TableImage.empty.validate = none ∧ hall.validate = some (9, 47) ∧
    (∀ crc : Word16, ∃ hi lo, (asks rig [8#8, hi, lo]).headMgmt = some (2, 7#8, .leaveConfig crc)) := by
  refine ⟨by decide +kernel, by decide +kernel, by decide +kernel, by decide +kernel, by decide +kernel,
    by decide +kernel, by decide +kernel, by decide +kernel, fun crc => ⟨crc.extractLsb' 8 8, crc.extractLsb' 0 8, ?_⟩⟩
  have join : word16 (crc.extractLsb' 8 8) (crc.extractLsb' 0 8) = crc := by
    unfold word16
    rw [BitVec.extractLsb'_append_extractLsb'_eq_extractLsb' (by rfl)]
    simp
  exact leaveConfig_is_served _
    { kind := .mgmtReq, dest := 60#8, src := 50#8, tag := 7#8, status := 0#8,
      payload := [8#8, crc.extractLsb' 8 8, crc.extractLsb' 0 8] } [] crc rfl (by show rig.mu.resetPhase = _; decide +kernel)
    (by show consoleAt (addrOf 50#8) = _; decide) (by show addrOf 60#8 = addrOf rig.ownAddr; decide +kernel) rfl
    (Eq.trans rfl (congrArg (fun w => some (MgmtReq.leaveConfig w)) join))

/-- A PUMP record in CONFIG, a SIGNAL record, and a NODE record that changes a kind and one that leaves the map. -/
theorem witness_LoadRecordReplacesTheWorkingRecord :
    (asks (rigIn .config) [6#8, 2#8, 0#8, 4#8, 0#8, 9#8, 1#8, 44#8]).headMgmt =
      some (2, 7#8, .loadRecord 2 4 [0#8, 9#8, 1#8, 44#8]) ∧
    (rigIn .config).mu.mode = .config ∧ (decodeRecord 2 4 [0#8, 9#8, 1#8, 44#8]).isSome = true ∧
    decodeRecord 2 5 [0#8, 9#8, 1#8, 44#8] = none ∧
    decodeRecord 4 0 [1#8, 0#8, 0#8, 1#8, 3#8, 0xE8#8] = some (.signal 0 { node := some 0 }) ∧
    decodeRecord 3 1 (encodeNode {}) = some (.node 0 {}) ∧
    (({} : NodeRec).chans.read 1).kind ≠ ((rigIn .config).image.chan 0 1).kind ∧
    ({} : NodeRec).inMap ≠ ((rigIn .config).image.node.read 0).inMap := by decide +kernel

/-- A GLOBAL record and a HATCH record not enabled; a read of node 1 queued, which goes where the node leaves the map, and
a write to its channel 0, which goes where that is OWNED or GUARDED, and stays where it is FREE. -/
theorem witness_LoadRecord_acts :
    let read : Frame := { kind := .fieldReq, dest := 1#8, src := 50#8, tag := 7#8, status := 0#8, payload := [1#8] }
    let write : Frame := { read with payload := [2#8, 1#8, 0#8, 0#8, 1#8] }
    let with0 := fun (c : ChanClass) => ({ inMap := true, chans := (Tab.fill 8 {}).put 0 { cls := c } } : NodeRec)
    decodeRecord 1 0 (encodeGlobal {}) = some (.global {}) ∧ decodeRecord 8 1 (encodeHatch {}) = some (.hatch 0 {}) ∧
    nodeAt read.destAddr = some 0 ∧ consoleAt read.srcAddr = some 2 ∧ framePairs read = [] ∧
    framePairs write = [(0, 1)] ∧
    ([.owned, .guarded, .free].map fun c => decide (((with0 c).chans.read 0).cls = .free)) = [false, false, true] ∧
    decodeRecord 3 1 (encodeNode (with0 .owned)) = some (.node 0 (with0 .owned)) := by decide +kernel

/-- A node that enters the scan with its NODE record, and one that leaves it. -/
theorem witness_LoadRecord_scan :
    let scans := fun (r : NodeRec) => r.inMap && r.poll
    scans { inMap := true, poll := true } = true ∧ scans ((rigIn .config).image.node.read 5) = false ∧
    scans {} = false ∧ scans ((rigIn .config).image.node.read 0) = true ∧
    decodeRecord 3 6 (encodeNode { inMap := true, poll := true }) = some (.node 5 { inMap := true, poll := true }) := by
  decide +kernel

theorem witness_ResetDeviceIsTakenAfterItsReply :
    (asks rig [9#8]).headMgmt = some (2, 7#8, .resetDevice) ∧ (rig.hatch 0).state = .idle ∧
    rig.cp.tx.length < 8 ∧ ((rigWith acting).hatch 0).state ≠ .idle ∧ (rigIn .storing).mu.mode = .storing := by
  decide +kernel

theorem witness_StoreCompletionReachesOperate : (rigIn .storing).mu.mode = .storing := by decide +kernel

/-- One of each test of R67, and a MANUAL_ENTER for two hatches. -/
theorem witness_RefusedRequestsChangeNoHatch :
    (orders (rigWith isTripped) [1#8, 0#8, 2#8]).headOperate = some (2, 7#8, .opening, [0]) ∧
    (rigWith isTripped).unchangedResult .opening 2 0 = some .refusedTripped ∧
    rig.unchangedResult .opening 2 1 = some .badHatch ∧
    (rigIn .config).unchangedResult .pause 2 0 = some .refusedConfig ∧
    ({ rig with sl := {} } : State).unchangedResult .opening 2 0 = some .refusedMotion ∧
    ({ rig with ls := { rig.ls with lapse := true } } : State).unchangedResult .manualEnter 2 0 = some .refusedLink ∧
    (orders rig [5#8, 0#8, 6#8]).headOperate = some (2, 7#8, .manualEnter, [0, 1]) := by decide +kernel

/-- What the entry of a step of hatch 1 finds: its four sets, a lost bound node, a fault, the estop and the lapse. -/
def findings (s : State) (o : Op) (n : StepNo) : List Bool :=
  let r := s.stepRec 0 o n
  [s.setHolds 0 r.startSet, s.setHolds 0 r.holdSet, s.setHolds 0 r.tripSet, s.setHolds 0 r.doneSet, s.boundLost 0,
    s.boundFault 0, s.roleTrue 0 .localEstop, s.ls.lapse]

/-- Hatch 1 with this record, and A at 200. -/
def flowing (r : HatchStatus) : State := { rigWith r with fa := { avail := 200 } }

/-- An entry that waits, one that holds and one that trips. -/
theorem witness_AcceptedRequestEntersTheStartingStep :
    (orders rig [1#8, 0#8, 2#8]).headOperate = some (2, 7#8, .opening, [0]) ∧ rig.enabled 0 = true ∧
    rig.mu.mode = .operate ∧ (rig.hatch 0).state = .idle ∧ rig.motionEn = true ∧ rig.ls.lapse = false ∧
    rig.setHolds 0 (rig.stepRec 0 .opening 0).tripSet = true ∧ waitsAndActs.fa.queue ≠ [] ∧
    rig.setHolds 0 (rig.stepRec 0 .opening 2).tripSet = false ∧
    (rig.setNode 0 { state := .present, faultWord := 1#16 }).boundFault 0 = true := by decide +kernel

/-- An entry that is admitted at once: the flow fits, the done set fails and holds with a settle time, the valve stands
alone on its channel, and the drive ends by its switch or goes on. -/
theorem witness_AcceptedRequest_admitted :
    let s : State := { rig with fa := { avail := 200 } }
    let r := s.stepRec 0 .opening 0
    (0 < s.fa.avail ∧ s.fa.queue = [] ∧ s.fa.demand + s.fa.minimum = 0 ∧ r.settle ≠ 0 ∧
      s.setHolds 0 r.doneSet = false ∧
      ({ s with signals := s.signals.put 5 { value := 1, quality := .fresh } } : State).setHolds 0 r.doneSet = true) ∧
    (s.stepBinary 0 r = [(0, 1)] ∧ s.stepDrives 0 r = [{ act := 1, dir := .outward, speed := 300, stop := 14500 }] ∧
      ((s.stepBinary 0 r).map fun p => s.image.demand p.1).sum = 10 ∧
      ((s.stepDrives 0 r).map fun d => s.image.minFlow d.act).sum = 60) ∧
    s.soleChannel 0 0 ∧ s.roleTrue 0 .pOpenEnd = false ∧ s.position 0 drive4 = none ∧
    ({ s with signals := s.signals.put 2 { value := 1, quality := .fresh } } : State).roleTrue 0 .pOpenEnd = true :=
  ⟨by decide +kernel, by decide +kernel, by unfold State.soleChannel; decide +kernel, by decide +kernel,
    by decide +kernel, by decide +kernel⟩

/-- An empty queue without room; and the marker at a step that ends at its admission, the final one or followed by one with
the record of step 0. -/
theorem witness_AcceptedRequest_ends :
    let s := fun (n : StepNo) => { flowing { marker := some (.opening, n) } with
      mu := { rig.mu with
        active := { hall with step := hall.step.put 4 (hall.stepOf 0 .opening 0) } } }
    ¬ rig.hasRoom [] (rig.requestOf 0 (rig.stepRec 0 .opening 0)) ∧ rig.fa.queue = [] ∧ rig.fa.units = [] ∧
    (s 1).hasRoom [] ((s 1).requestOf 0 ((s 1).stepRec 0 .opening 1)) ∧
    ((s 1).stepRec 0 .opening 1).settle = 0 ∧ ((s 1).stepRec 0 .opening 1).last = true ∧
    (s 3).hasRoom [] ((s 3).requestOf 0 ((s 3).stepRec 0 .opening 3)) ∧
    ((s 3).stepRec 0 .opening 3).settle = 0 ∧ ((s 3).stepRec 0 .opening 3).last = false ∧
    findings (s 1) .opening 1 = [true, true, true, true, false, false, false, false] ∧
    findings (s 3) .opening 3 = [true, true, true, true, false, false, false, false] ∧
    findings (s 3) .opening 4 = [true, true, true, false, false, false, false, false] ∧
    (s 3).hasRoom [] ((s 3).requestOf 0 ((s 3).stepRec 0 .opening 4)) := by
  simp only [State.hasRoom]
  decide +kernel

/-- What a resumption by AUTO asks beside its own hatch: no other hatch is HELD, for HoldFromTheOwnerRestartsTheWindow,
AcknowledgeDeviceReleasesMotion and TakenReplyActsByItsFunction; the step is named, and the queues are empty, for the
notices of OwnersRequestFillsThePendingSlot, StepTimersTripOrEndTheStep and RampTickMovesEveryDrive. -/
theorem witness_Resumes_alone :
    let s := flowing { heldByPause with active := { linkLapse := true }, latched := {} }
    (s.hatch 0).operation = some .opening ∧ (s.hatch 0).step = some 0 ∧
    (∀ k, k ≠ 0 → (s.hatch k).state ≠ .held) ∧ s.cp.tx = [] ∧ s.fa.queue = [] ∧
    findings s .opening 0 = [true, true, true, false, false, false, false, false] := by decide +kernel

/-- In STOPPING, and from RUNNING with a drive that moves, one that stands, and a trip set that fails. -/
theorem witness_OwnersRequestFillsThePendingSlot :
    (orders rig [2#8, 0#8, 2#8]).headOperate = some (2, 7#8, .closing, [0]) ∧ rig.enabled 0 = true ∧
    ((rigWith acting).hatch 0).owner = some 2 ∧ ((rigWith acting).hatch 0).operation = some Op.closing.opposite ∧
    rig.setHolds 0 (rig.stepRec 0 .opening 0).tripSet = true ∧ 1 ∈ rig.propActs 0 ∧
    ((rig.setDrive 1 rolling).drive 1).c ≠ 0 ∧ (rig.drive 1).c = 0 ∧
    rig.setHolds 0 (rig.stepRec 0 .opening 2).tripSet = false ∧
    ((rigWith { acting with state := .stopping }).hatch 0).state = .stopping := by decide +kernel

/-- The entry of opening step 0: nothing is against it, and its request fits, or does not while A is 0; a lost node trips
it and a fault holds it. -/
theorem witness_StepEntered :
    let r : HatchStatus := { acting with operation := some .closing }
    findings (flowing r) .opening 0 = [true, true, true, false, false, false, false, false] ∧
    (flowing r).hasRoom [] ((flowing r).requestOf 0 ((flowing r).stepRec 0 .opening 0)) ∧
    ¬ (rigWith r).hasRoom [] ((rigWith r).requestOf 0 ((rigWith r).stepRec 0 .opening 0)) ∧
    ((rigWith r).setNode 0 { state := .lost }).boundLost 0 = true ∧
    ((rigWith r).setNode 0 { state := .present, faultWord := 1#16 }).boundFault 0 = true := by
  simp only [State.hasRoom]
  decide +kernel

/-- OPEN from the owner in CLOSE, its drives at rest: motion released, and not; its request starts opening step 0. -/
theorem witness_OwnersRequest_starts :
    let s := flowing { acting with operation := some .closing }
    (orders s [1#8, 0#8, 2#8]).headOperate = some (2, 7#8, .opening, [0]) ∧
    s.setHolds 0 (s.stepRec 0 .closing 0).tripSet = true ∧ (∀ a ∈ s.propActs 0, (s.drive a).c = 0) ∧
    (s.stepRec 0 .closing 0).reverse = none ∧ s.motionEn = true ∧ s.ls.lapse = false ∧
    ({ s with sl := {} } : State).motionEn = false := by decide +kernel

/-- PAUSE in HELD, and in RUNNING with the trip set holding and failing; RESUME with nothing and with something left. -/
theorem witness_PauseHoldsAndResumeReenters :
    ((orders rig [3#8, 0#8, 2#8]).headOperate = some (2, 7#8, .pause, [0]) ∧ rig.enabled 0 = true ∧
      rig.mu.mode = .operate ∧ ((rigWith acting).currentStep 0).isSome = true ∧
      ((rigWith { heldByPause with active := {} }).hatch 0).active.pause = false ∧
      (rigWith acting).setHolds 0 (rig.stepRec 0 .opening 0).tripSet = true ∧
      (rigWith { acting with step := some 2 }).setHolds 0 (rig.stepRec 0 .opening 2).tripSet = false) ∧
    ((orders rig [4#8, 0#8, 2#8]).headOperate = some (2, 7#8, .resume, [0]) ∧
      ((rigWith heldByPause).hatch 0).state = .held ∧ ((rigWith heldByPause).hatch 0).owner = some 2 ∧
      ({ heldByPause.active with pause := false } : HoldSet) = {} ∧
      ((rigWith heldByPause).currentStep 0).isSome = true ∧ rig.boundLost 0 = false ∧ rig.boundFault 0 = false ∧
      rig.roleTrue 0 .localEstop = false ∧ rig.window 0 ≠ .lapsed ∧ waitsAndActs.fa.queue ≠ [] ∧
      ({ ({ pause := true, condition := true } : HoldSet) with pause := false } : HoldSet) ≠ {}) :=
  ⟨by decide +kernel, by decide +kernel⟩

/-- A reservation that fits and one that does not; a LOST bound node; a session that ends. -/
theorem witness_ManualSessionIsEnteredAndLeft :
    ((orders rig [5#8, 0#8, 2#8]).headOperate = some (2, 7#8, .manualEnter, [0]) ∧ rig.enabled 0 = true ∧
      (rig.hatch 0).state = .idle ∧ rig.motionEn = true ∧ rig.ls.lapse = false ∧
      (rig.hatchRec 0).reservation = 30 ∧ rig.fa.demand + rig.fa.minimum + 30 ≤ 30 ∧ rig.fa.avail < 30 ∧
      rig.fa.queue = [] ∧ rig.boundLost 0 = false ∧ rig.roleTrue 0 .localEstop = false ∧
      (rig.setNode 0 { state := .lost }).boundLost 0 = true) ∧
    ((orders (rigWith inManual) [6#8, 0#8, 2#8]).headOperate = some (2, 7#8, .manualLeave, [0]) ∧
      ((rigWith inManual).hatch 0).state = .manual ∧ ((rigWith inManual).hatch 0).owner = some 2 ∧
      (rigWith inManual).fa.queue = []) :=
  ⟨by decide +kernel, by decide +kernel⟩

/-- Each class, each line of Table 10-2, and a value at each edge of the span. -/
theorem witness_WritePairsAreJudgedAndClamped :
    (rig.image.chan 0 0).cls = .owned ∧ (rig.image.chan 1 2).cls = .free ∧ (rig.image.chan 1 1).cls = .guarded ∧
    (rigIn .config).mu.mode = .config ∧ ((rigWith inManual).hatch 0).state = .manual ∧ rig.window 0 = .stopped ∧
    ((rig.setWindow 0 (.live 1)).window 0).isLive = true ∧
    (hall.clampPair 1 (1, 2648)).2 = 2648 ∧ (hall.clampPair 1 (1, 2649)).2 = 2648 ∧
    (hall.clampPair 1 (1, 1448)).2 = 1448 ∧ (hall.clampPair 1 (1, 1447)).2 = 1448 ∧
    (hall.clampPair 1 (0, 2)).2 = 2 ∧ (hall.clampPair 1 (0, 3)).2 = 0 ∧
    parseFieldReq [2#8, 1#8, 1#8, 8#8, 0#8] = some (.writeOutputs [(1, 2048)]) := by decide +kernel

/-- A read, a write that is blocked and a write that passes. -/
theorem witness_ConsoleFieldRequestIsJudged :
    let s := (rigWith inManual).setWindow 0 (.live 300)
    (match (heads rig .fieldReq 2#8 [3#8]).headService with
      | some (.field _ c n q) => some (c, n, q)
      | _ => none) = some (2, 1, .readStatus) ∧
    (match (heads s .fieldReq 2#8 [2#8, 1#8, 1#8, 8#8, 0#8]).headService with
      | some (.field _ c n q) => some (c, n, q)
      | _ => none) = some (2, 1, .writeOutputs [(1, 2048)]) ∧
    s.firstBlocked 1 2 [(1, 2048)] = none ∧ rig.firstBlocked 1 2 [(1, 2048)] = some (1, .notManual) := by decide +kernel

/-- Each choice of the arbiter. -/
theorem witness_ChosenWorkBeginsOnTheLine :
    let f : Frame := { kind := .fieldReq, dest := 1#8, src := 50#8, tag := 77#8, status := 0#8, payload := [1#8] }
    ({ rig with flc := { rig.flc with neutralPending := true } } : State).choice = some .neutral ∧
    (rig.setOutChan 0 1 { value := 2888, dirty := true }).choice = some (.write 0) ∧
    (rig.setNode 1 { state := .present, alertPending := true }).choice = some (.alert 1) ∧
    ({ rig with flc := { rig.flc with forward := [f] } } : State).choice = some (.forward f) ∧
    rig.choice = some (.poll 0) ∧ nodeAt f.destAddr = some 0 ∧ consoleAt f.srcAddr = some 2 ∧
    parseFieldReq f.payload = some .readInputs := by decide +kernel

/-- With and without an outstanding transaction, nothing to write, and every kind of work that waits. -/
theorem witness_ArbiterSendsTheFirstWaitingWork :
    (awaits .readInputs []).flc.outstanding ≠ none ∧ rig.flc.outstanding = none ∧ rig.flc.neutralPending = false ∧
    rig.dirtyNode = none ∧ rig.nextDue = some 0 ∧ rig.alertNode = none ∧
    ((rig.setNode 1 { state := .present, alertPending := true }).node 1).alertPending = true := by decide +kernel

/-- Before and after the request is sent; the first, the second and the third miss; a part write and a console's. -/
theorem witness_ReplyTimeoutCountsAMiss :
    (after .scanPollBegin rig).flc.outstanding.map (·.left) = some none ∧
    (awaits .writeOutputs [(1, 2888)]).flc.outstanding.map (·.left) = some (some 5) ∧
    ((awaits .readInputs []).node 0).state = .unknown ∧ ((awaits .readInputs []).node 0).misses < 2 ∧
    (((awaits .readInputs []).setNode 0 { state := .present, misses := 2 }).node 0).misses = 2 ∧
    ((awaits .readInputs []).node 40).state = .absent ∧ rig.image.boundNode 0 0 = true := by decide +kernel

theorem witness_UnmatchedFrameSetsFFrameErr :
    (awaits .readStatus []).matchReply (answers 1#8 0#8 [1#8, 0#8]) = none ∧
    ((awaits .readInputs []).matchReply (answers 1#8 0#8 [1#8, 0#8])).isSome = true ∧
    (answers 1#8 0#8 [1#8, 0#8]).bytes ≠ [] ∧ ∀ x, (awaits .readStatus []).flc.outstanding = some x → x.left ≠ none := by
  refine ⟨by decide +kernel, by decide +kernel, by decide +kernel, fun x h => ?_⟩
  rw [← Option.some.inj h]
  exact Option.some_ne_none _

/-- A reply of each function; a node that saturates; an echo that does not match. -/
theorem witness_TakenReplyActsByItsFunction :
    ((awaits .readInputs []).matchReply (answers 1#8 0#8 [1#8, 0#8])).map (fun x => (x.1.fn, x.2.2)) =
      some (.readInputs, .inputs []) ∧
    ((awaits .writeOutputs [(1, 2888)]).matchReply (answers 1#8 0#8 [2#8, 1#8, 1#8, 8#8, 0#8])).map
      (fun x => (x.1.fn, x.2.2)) = some (.writeOutputs, .outputs [(1, 2048)]) ∧
    ((awaits .readStatus []).matchReply (answers 1#8 0x80#8 [3#8, 0#8, 0#8])).map (fun x => (x.1.fn, x.2.2)) =
      some (.readStatus, .status 0#16) ∧
    (rig.node 0).state ≠ .absent ∧ (rig.node 40).state = .absent ∧ rig.image.global.readbackEnable = true ∧
    rig.image.readbackTo 0 0 1 = true := by decide +kernel

/-- A part write whose echo matches, readback disabled, and a console's write. -/
theorem witness_TakenReply_matches :
    ((awaits .writeOutputs [(1, 2048)]).matchReply (answers 1#8 0#8 [2#8, 1#8, 1#8, 8#8, 0#8])).map
      (fun x => (x.1.requester, x.1.sent, x.2.2)) = some (.part, [(1, 2048)], .outputs [(1, 2048)]) ∧
    ({ hall with global := { hall.global with readbackEnable := false } } : TableImage).global.readbackEnable = false ∧
    Requester.console 2 ≠ .part := by decide +kernel

/-- The fault word of a bound node that rises from zero, and one that falls to it, for a RUNNING and for a HELD hatch. -/
theorem witness_TakenReply_faults :
    (((awaits .readStatus []).matchReply (answers 1#8 0#8 [3#8, 0#8, 4#8])).map fun x => x.2.2) =
      some (.status 4#16) ∧
    (((awaits .readStatus []).matchReply (answers 1#8 0#8 [3#8, 0#8, 0#8])).map fun x => x.2.2) =
      some (.status 0#16) ∧
    (rig.node 0).faultWord = 0#16 ∧ rig.image.boundNode 0 0 = true ∧
    ((rigWith acting).hatch 0).state = .running ∧ ((rigWith acting).currentStep 0).isSome = true ∧
    ((rigWith { heldByPause with active := { nodeFault := true }, latched := {} }).hatch 0).active =
      { nodeFault := true } ∧
    ((rig.setNode 0 { state := .present, faultWord := 4#16 }).node 0).faultWord ≠ 0#16 := by decide +kernel

/-- A LOCAL_ESTOP that the reply makes true, of a hatch ACTING, MANUAL, TRIPPED and IDLE. -/
theorem witness_TakenReply_localEstop :
    let s := fun (r : HatchStatus) =>
      ({ listens r 0 with
          mu := { rig.mu with
            active := { wired with
              hatch := (Tab.fill 12 {}).put 0 { hall.hatch.read 0 with sigs := (hall.hatch.read 0).sigs.put 16 (some 5) } } } } :
        State)
    ((s acting).enabled 0 = true ∧ ((s acting).hatchRec 0).signalOf .localEstop = some 5 ∧
      ((s acting).signal 5).quality = .fresh ∧ ((s acting).signal 5).value = 0) ∧
    ((((s acting).sampled 0 (inputs 5000#16 1#16 0#16)).signal 5).quality = .fresh ∧
      (((s acting).sampled 0 (inputs 5000#16 1#16 0#16)).signal 5).value ≠ 0) ∧
    ([acting, inManual, isTripped, {}].map fun r => ((s r).hatch 0).state) = [.running, .manual, .tripped, .idle] := by
  decide +kernel

/-- A scan timer that runs, a driven OWNED channel, and none. -/
theorem witness_ScanAndRefreshTimersMarkTheNode :
    ((after .scanPollBegin rig).flc.scan.read 0).left ≠ none ∧ (rig.image.chan 0 0).cls = .owned ∧
    ((rig.setOutChan 0 0 { value := 1 }).outChan 0 0).value ≠ rig.image.neutralOf 0 0 ∧
    (rig.outChan 0 0).value = rig.image.neutralOf 0 0 ∧ (rig.outChan 0 1).value = rig.image.neutralOf 0 1 := by
  decide +kernel

/-- Each kind; a switch with a debounce count of 3 under two and under three disagreeing samples. -/
theorem witness_SamplesAreAcceptedAndDebounced :
    ({ kind := .value } : SignalRec).kind = .value ∧ ({ kind := .count } : SignalRec).kind = .count ∧
    ({} : SignalRec).kind = .switch ∧ ({} : SignalState).quality ≠ .fresh ∧
    let x : SignalState := { quality := .fresh }
    x.run = 0 ∧ x.candidate = none ∧ x.value = 0 ∧ (1 : Int) = 1 - x.value ∧ SignalKind.switch.reading 5#16 = 1 ∧
      SignalKind.switch.reading 0#16 = x.value ∧ [5#16, 5#16].length < 3 ∧ [5#16, 5#16, 5#16].length = 3 := by decide

/-- The state whose sensor image the reply leaves, before its update events act. -/
def sampledBy (r : HatchStatus) (v : Int) (l : List Word16) : State := (listens r v).sampled 0 l

/-- The sets of hatch 1 in the step at hand, as the sensor image after the reply has them: start, hold, trip, done; and
whether its level has changed. -/
def judged (r : HatchStatus) (v : Int) (level : Word16) : List Bool :=
  let t := sampledBy r v (inputs 5000#16 level 0#16)
  match t.currentStep 0 with
  | some x =>
    [t.setHolds 0 x.startSet, t.setHolds 0 x.holdSet, t.setHolds 0 x.tripSet, t.setHolds 0 x.doneSet,
      decide ((t.signal 5).value ≠ v)]
  | none => []

/-- A reply taken in the wired installation, no pump on its node, and the set that the steps' sets read. -/
theorem witness_UpdateEventsDecideTheStep :
    ((listens acting 0).matchReply (tells (inputs 5000#16 1#16 0#16))).map (fun x => x.2.2) =
        some (.inputs (inputs 5000#16 1#16 0#16)) ∧
      ((listens acting 0).node 0).state ≠ .absent ∧ (listens acting 0).enabled 0 = true ∧
      ((listens acting 0).currentStep 0).isSome = true ∧
      (∀ p, ((wired.pump.read p).running.all fun i => decide ((wired.signal.read i).node ≠ some 0)) = true) ∧
      (0 : CondId) ∈ wired.setOf 1 ∧ (wired.condition.read 0).ref.resolve (wired.hatch.read 0) = some 5 := by
  decide +kernel

/-- The clauses on the verdicts: the trip set fails; the hold set fails; the done set holds; it fails in
SETTLING. -/
theorem witness_UpdateEvents_verdicts :
    judged { acting with step := some 2 } 1 0#16 = [true, true, false, true, true] ∧
      judged { acting with step := some 3 } 1 0#16 = [true, false, true, true, true] ∧
      judged acting 0 1#16 = [true, true, true, true, true] ∧
      judged { acting with phase := some .settling } 1 0#16 = [true, true, true, false, true] := by
  decide +kernel

/-- The hold set of a HELD hatch fails, and holds again; the done set of an ACTING one fails without and with a change. -/
theorem witness_UpdateEvents_held :
    judged { heldByPause with step := some 3 } 1 0#16 = [true, false, true, true, true] ∧
      judged { heldByPause with step := some 3 } 0 1#16 = [true, true, true, true, true] ∧
      judged acting 1 0#16 = [true, true, true, false, true] ∧
      judged acting 0 0#16 = [true, true, true, false, false] := by
  decide +kernel

/-- The clauses on the end of a step: a settle time, a final step without one, and another with A at 0. -/
theorem witness_UpdateEvents_ends :
    (wired.stepOf 0 .opening 0).settle = 100 ∧ (wired.stepOf 0 .opening 4).settle = 0 ∧
      (wired.stepOf 0 .opening 4).last = true ∧ (wired.stepOf 0 .opening 5).last = false ∧
      judged { acting with step := some 4 } 0 1#16 = [true, true, true, true, true] ∧
      judged { acting with step := some 5 } 0 1#16 = [true, true, true, true, true] ∧
      ({ listens { acting with step := some 5 } 0 with fa := {} } : State).fa.avail = 0 := by
  decide +kernel

/-- The admission of the step that follows: hatch 1 alone, no request, and room. -/
theorem witness_UpdateEvents_next :
    let s := listens { acting with step := some 5 } 0
    (∀ j, j ≠ 0 → (s.hatch j).state = .idle) ∧ s.fa.queue = [] ∧ (s.stepRec 0 .opening 6).settle = 5 ∧
    s.hasRoom (s.fa.units.filter fun y => y.hatch != 0) (s.requestOf 0 (s.stepRec 0 .opening 6)) ∧
    findings (sampledBy { acting with step := some 5 } 0 (inputs 5000#16 1#16 0#16)) .opening 6 =
      [true, true, true, true, false, false, false, false] := by
  simp only [State.hasRoom]
  decide +kernel

/-- The clauses on a drive: the position ends it, the end switch ends it, the position reforms its target. -/
theorem witness_UpdateEvents_drives :
    (1 : ActId) ∈ ((listens acting 0).hatchRec 0).actIds ∧ (listens acting 0).drive 1 = rolling ∧
      (wired.actuator.read 1).kind = .proportional drive4 ∧
      (∀ k, k ≠ 0 → (1 : ActId) ∉ ((listens acting 0).hatchRec k).actIds) ∧
      (sampledBy acting 0 (inputs 14500#16 0#16 0#16)).position 0 drive4 = some 14500 ∧
      (sampledBy acting 0 (inputs 5000#16 0#16 1#16)).roleTrue 0 .pOpenEnd = true ∧
      (sampledBy acting 0 (inputs 5000#16 0#16 0#16)).position 0 drive4 = some 5000 := by
  decide +kernel

/-- The stop that ends with its drive at its stop position, or goes on before it: the hatch alone in motion, queues empty,
a request in the slot or none, motion released or not; a final step completed so; and a HELD hatch with a drive that
stops, for UpdateEventsDecideTheStep, ExpiredSignalsBecomeStale and ReplyTimeoutCountsAMiss. -/
theorem witness_UpdateEvents_stops :
    let r : HatchStatus := { acting with state := .stopping, phase := none, stepTimer := none }
    let s := fun (r : HatchStatus) =>
      ({ listens r 0 with fa := { avail := 200 } } : State).setDrive 1 { rolling with state := .stopping }
    let asked := { r with request := some (.opening, 2) }
    ((s r).enabled 0 = true ∧ ((s r).currentStep 0).isSome = true ∧
      (∀ j, j ≠ 0 → ((s r).hatch j).state = .idle) ∧ (∀ a, ((s r).drive a).state ≠ .inMotion) ∧ (s r).cp.tx = [] ∧
      (s r).fa.queue = [] ∧ (s r).soleDrive 0 1 ∧ ((s r).drive 1).c = 105) ∧
    (let u := (s r).sampled 0 (inputs 14500#16 0#16 0#16)
     u.setHolds 0 (u.stepRec 0 .opening 0).tripSet = true ∧ u.roleTrue 0 .localEstop = false ∧
       (u.signal 1).quality ≠ ((s r).signal 1).quality ∧ u.position 0 drive4 = some 14500 ∧ (s r).propActs 0 = [1]) ∧
    (((s r).hatch 0).request = none ∧ ((s asked).hatch 0).request = some (.opening, 2) ∧ (s asked).motionEn = true ∧
      ({ s asked with sl := {} } : State).motionEn = false) ∧
    ((s { acting with step := some 4 }).hatch 0).state = .running ∧
    ((s { heldByPause with step := some 3 }).hatch 0).state = .held := by
  simp only [State.soleDrive]
  decide +kernel

/-- A third miss of node 1 with hatch 2, which is not bound to it, at a step of its own. -/
theorem witness_ReplyTimeout_unbound :
    let s : State := { bothEnabled with flc := (awaits .readInputs []).flc }
    (s.setNode 0 { state := .present, misses := 2 }).node 0 = { state := .present, misses := 2 } ∧
    s.enabled 1 = true ∧ s.image.boundNode 1 0 = false ∧ (s.currentStep 1).isSome = true := by decide +kernel

/-- A drive in motion whose position becomes STALE, its hatch ACTING and going on. -/
theorem witness_ExpiredSignals_pauses :
    let s : State := { moving with signals := moving.signals.put 1 { value := 5000, quality := .fresh } }
    let t := after (.signalAgeExpiry [1]) s
    ((s.signal 1).quality = .fresh ∧ (s.hatch 0).phase = some .acting ∧ (s.drive 1).state = .inMotion ∧
      (s.hatchRec 0).signalOf drive4.posRole = some 1 ∧ (s.image.actuator.read 1).kind = .proportional drive4) ∧
    (∀ p, (s.image.pump.read p).running ≠ some 1) ∧ s.soleDrive 0 1 ∧ 1 ∈ s.propActs 0 ∧ s.fa.queue = [] ∧
    findings t .opening 0 = [true, true, true, false, false, false, false, false] ∧
    t.roleTrue 0 (drive4.endRole .outward) = false := by
  simp only [State.soleDrive]
  decide +kernel

/-- The pump's signal among those named, and one no pump reads; a trip set that reads a signal named. -/
theorem witness_ExpiredSignalsBecomeStale :
    let s : State :=
      { rigWith { acting with step := some 2 } with
          signals := (rig.signals.put 5 { value := 1, quality := .fresh, age := 9 }).put 6
            { value := 1, quality := .fresh, age := 9 } }
    (s.signal 5).quality = .fresh ∧ (s.signal 6).quality = .fresh ∧ (s.image.pump.read 0).running = some 6 ∧
      s.enabled 0 = true ∧ (s.hatch 0).state = .running ∧ (s.currentStep 0).isSome = true ∧
      (0 : CondId) ∈ s.image.setOf (s.stepRec 0 .opening 2).tripSet ∧
      (s.image.condition.read 0).ref.resolve (s.hatchRec 0) = some 5 := by decide +kernel

/-- Conditions on a bound and on an absent role. -/
theorem witness_ConditionsCompareFreshValues :
    (rig.image.condition.read 0).ref.resolve (rig.hatchRec 0) = some 5 ∧
    (CondRef.role .localEstop).resolve (rig.hatchRec 0) = none := by decide +kernel

/-- In ACTING and in SETTLING; at a final step and at one that is followed by another. -/
theorem witness_StepTimersTripOrEndTheStep :
    ((rigWith acting).hatch 0).stepTimer ≠ none ∧ (rigWith acting).fa.queue = [] ∧ (rigWith acting).cp.tx = [] ∧
    let s := rigWith { acting with phase := some .settling, settleTimer := some 1 }
    (s.hatch 0).settleTimer ≠ none ∧ (s.stepRec 0 .opening 0).last = false ∧ (s.stepRec 0 .opening 1).last = true := by
  decide +kernel

/-- The outcomes of the entry of the next step: opening step 1, with the record of step 0, waits or is admitted; an
attended step after an attended one keeps a LAPSED window. -/
theorem witness_StepTimers_next :
    let r : HatchStatus := { acting with phase := some .settling, settleTimer := some 1 }
    let s : State :=
      { flowing r with
          mu := { rig.mu with
            active := { hall with step := (hall.step.put 1 (hall.stepOf 0 .opening 0)).put 3 { attended := true } } } }
    findings s .opening 1 = [true, true, true, false, false, false, false, false] ∧
    s.hasRoom [] (s.requestOf 0 (s.stepRec 0 .opening 1)) ∧ s.fa.queue = [] ∧ s.fa.units = [] ∧
    ¬ ({ s with fa := {} } : State).hasRoom [] (s.requestOf 0 (s.stepRec 0 .opening 1)) ∧
    (s.setNode 0 { state := .lost }).boundLost 0 = true ∧
    (s.setNode 0 { state := .present, faultWord := 1#16 }).boundFault 0 = true ∧
    (s.stepRec 0 .opening 2).attended = true ∧ (s.stepRec 0 .opening 2).last = false ∧
    (s.stepRec 0 .opening 3).attended = true ∧ (s.setWindow 0 .lapsed).window 0 = .lapsed := by
  simp only [State.hasRoom]
  decide +kernel

/-- HELD and RUNNING on an attended step, with the trip set holding and failing, and MANUAL. -/
theorem witness_HoldWindowExpiryHoldsOrNeutralises :
    (rig.setWindow 0 (.live 1)).window 0 = .live 1 ∧ (rigWith { heldByPause with step := some 1 }).onAttended 0 = true ∧
    (rig.stepRec 0 .opening 1).attended = true ∧ rig.setHolds 0 (rig.stepRec 0 .opening 1).tripSet = true ∧
    (rig.stepRec 0 .opening 2).attended = true ∧ rig.setHolds 0 (rig.stepRec 0 .opening 2).tripSet = false ∧
    ((rigWith inManual).hatch 0).state = .manual := by decide +kernel

/-- LINK_LAPSE clear and set, with the timer running. -/
theorem witness_LinkWindowExpiryLapsesThenStops :
    rig.ls.link = some 2000 ∧ rig.ls.lapse = false ∧
    ({ rig with ls := { rig.ls with lapse := true } } : State).ls.link = some 2000 ∧ rig.enabled 0 = true := by
  decide +kernel

/-- A RUNNING hatch whose trip set holds, and one whose trip set fails. -/
theorem witness_LinkWindowExpiry_runs :
    ((rigWith acting).hatch 0).state = .running ∧ ((rigWith acting).currentStep 0).isSome = true ∧
    rig.setHolds 0 (rig.stepRec 0 .opening 0).tripSet = true ∧
    ((rigWith { acting with step := some 2 }).currentStep 0).isSome = true ∧
    rig.setHolds 0 (rig.stepRec 0 .opening 2).tripSet = false := by decide +kernel

/-- The pin active from RELEASED with a RUNNING hatch, which meets the hard stop's premises; LINK_LAPSE set too, with the
link window timer running, for the hard stop of LinkWindowExpiryLapsesThenStops. -/
theorem witness_EstopInputIsDebouncedAndStopsHard :
    let s : State :=
      { bothEnabled with
          sl := { pinActive := true, run := some 5, motionReleased := true },
          ls := { bothEnabled.ls with lapse := true } }
    (s.sl.estop = .released ∧ s.ls.link = some 2000) ∧ s.sl.run ≠ none ∧ s.MotionSafe ∧ s.FlowMatched ∧
    (∀ h, s.enabled h = true → ∀ a ∈ s.binaryActs h,
      s.image.neutralOf (s.image.actuator.read a).node (s.image.actuator.read a).channel = 0) := by
  refine ⟨by decide +kernel, by decide +kernel, ⟨by decide +kernel, by decide +kernel, by decide +kernel⟩,
    ⟨by decide +kernel, by decide +kernel, ?_, ?_, by decide +kernel⟩, by decide +kernel⟩
  · intro r l h
    obtain ⟨rfl, -⟩ := FlowUnit.step.inj (List.mem_singleton.mp h)
    decide +kernel
  · intro h v m
    cases List.mem_singleton.mp m

/-- No hatch STOPPING; a drive in motion, one stopping above and one at its down step. -/
theorem witness_RampTickMovesEveryDrive :
    (∀ h, ((rigWith acting).hatch h).state ≠ .stopping) ∧ (rig.image.actuator.read 1).kind = .proportional drive4 ∧
    rolling.state = .inMotion ∧ rolling.c ≠ 97 ∧ drive4.downStep = 20 ∧ rolling.c > 20 := by decide +kernel

/-- A STOPPING hatch, alone: its drive has further to go, or comes to rest; a request in its slot, or none; motion
released, or not. -/
theorem witness_RampTick_ends :
    let r : HatchStatus := { acting with state := .stopping, phase := none, stepTimer := none }
    let s := fun (r : HatchStatus) (c : Nat) => (flowing r).setDrive 1 { rolling with state := .stopping, c := c }
    let asked := { r with request := some (.opening, 2) }
    ((∀ k, k ≠ 0 → ((s r 15).hatch k).state ≠ .stopping) ∧ (s r 15).propActs 0 = [1] ∧ (s r 15).cp.tx = []) ∧
    (((s r 105).drive 1).state = .stopping ∧ drive4.downStep < ((s r 105).drive 1).c ∧
      ((s r 15).drive 1).c ≤ drive4.downStep ∧ (rig.image.actuator.read 1).kind = .proportional drive4) ∧
    (((s r 15).hatch 0).request = none ∧ ((s asked 15).hatch 0).request = some (.opening, 2)) ∧
    ((s asked 15).motionEn = true ∧ (s asked 15).ls.lapse = false ∧
      ({ s asked 15 with sl := {} } : State).motionEn = false ∧ (s asked 15).fa.queue = [] ∧
      ((s asked 15).stepRec 0 .opening 0).reentry.getD 0 = 0) ∧
    findings (s asked 15) .opening 0 = [true, true, true, false, false, false, false, false] := by
  refine ⟨by decide +kernel, by decide +kernel, by decide +kernel, by decide +kernel, by decide +kernel⟩

theorem witness_TargetAndValveCodeOfADrive :
    (0 < 125 ∧ drive4.deadband + 125 * drive4.gain / 256 ≤ drive4.maxSpan ∧
      drive4.maxSpan < drive4.deadband + 145 * drive4.gain / 256 ∧ drive4.maxSpan ≤ 2047) ∧
    drive4.minFlow ≤ drive4.creepFlow ∧ drive4.creepFlow ≤ drive4.maxFlow := by decide

/-- The actions of Table 6-2, with one paused. -/
theorem witness_AllocationsShareTheFlow :
    180 + ([roll 2, rollPaused 3].map (·.m)).sum ≤ 390 ∧ ∀ x ∈ [roll 2, rollPaused 3], x.paused = false → x.m ≤ x.t := by
  decide

/-- A pass at A = 0, and one that stops at a head that does not fit. -/
theorem witness_FlowIsTakenAndGivenBackInOrder :
    let f : FlowAllocator := { avail := 15, queue := [{ hatch := 0, dStep := 10, actions := [] },
                                                      { hatch := 1, dStep := 10, actions := [] }] }
    f.demand + f.minimum ≤ f.avail ∧ (f.admitAll 2).1 = [0] ∧ (f.admitAll 2).2.queue ≠ [] ∧
      (({ f with avail := 0 } : FlowAllocator).admitAll 2).1 = [] := by decide

/-- A shed at A = 0 of the step of an ACTING hatch with a drive in motion and a valve of its own, and of the reservation
of a MANUAL one. -/
theorem witness_FlowIsTakenAndGivenBack_shed :
    let s : State :=
      { ((listens acting 0).setHatch 1 inManual) with
          fa := { units := [.step { hatch := 0, dStep := 10, actions := [(1, 60)] } [(1, 60)], .manual 1 30] } }
    (((Ev.begin s).shed s.fa.units.length).st.fa.units = [] ∧ (s.hatch 0).admitted = true ∧
      (1 : ActId) ∈ s.propActs 0 ∧ (s.drive 1).state = .inMotion ∧ (s.currentStep 0).isSome = true ∧
      (s.hatch 1).state = .manual ∧ (s.hatch 2).admitted = false) ∧ s.soleChannel 0 0 :=
  ⟨by decide +kernel, by unfold State.soleChannel; decide +kernel⟩

end Sys2Proof.Tests
end

section
/-! PROOFS. The sensor image: what one sample does (R21, R22, R23), what a run of disagreeing samples does, and which
signals a reply raises an update event for (R27). -/

namespace Sys2Proof

/-- The entries of two tables side by side are their entries at each index. -/
theorem Tab.mem_entries_zip {α β : Type} {n : Nat} (t : Tab α n) (u : Tab β n) (p : (Fin n × α) × β) :
    p ∈ t.entries.zip u.toList ↔ p = ((p.1.1, t.read p.1.1), u.read p.1.1) := by
  simp only [List.mem_iff_getElem, Tab.entries, List.length_zip, indexedFrom_length, Vector.length_toList,
    Nat.min_self, List.getElem_zip, indexedFrom_getElem, Nat.zero_add, Vector.getElem_toList]
  constructor
  · rintro ⟨i, _, rfl⟩
    rfl
  · intro hp
    exact ⟨p.1.1.val, p.1.1.isLt, hp.symm⟩

namespace Machine

/-! ### One sample -/

@[simp] theorem SignalState.fresh_iff (x : SignalState) : x.fresh = true ↔ x.quality = .fresh := by
  simp [SignalState.fresh]

/-- The ceiling of a COUNT sample (R21). -/
theorem SignalKind.reading_count (input : Word16) :
    SignalKind.count.reading input = if 32767 < input.toNat then 32767 else (input.toNat : Int) := by
  simp only [SignalKind.reading]
  split <;> omega

/-- A sample that is not debounced is accepted at once (R21, R23). -/
theorem SignalState.sample_eq_accept {x : SignalState} {r : SignalRec} (h : r.kind = .switch → x.quality ≠ .fresh)
    (input : Word16) : x.sample r input = x.accept (r.kind.reading input) := by
  simp only [SignalState.sample, SignalState.fresh_iff]
  exact if_neg fun both => h both.1 both.2

/-- A sample of a FRESH SWITCH is debounced (R22). -/
theorem SignalState.sample_eq_debounce {x : SignalState} {r : SignalRec} (kind : r.kind = .switch)
    (fresh : x.quality = .fresh) (input : Word16) :
    x.sample r input = x.debounce r.debounce (SignalKind.switch.reading input) := by
  simp [SignalState.sample, kind, fresh]

/-- A signal `n` samples of reading `v` into a run that has not yet reached its debounce count (R22). -/
def SignalState.inRun (x : SignalState) (v : Int) (n : Nat) : SignalState :=
  { value := x.value, quality := .fresh, age := 0, candidate := some (v != 0), run := n }

/-- An agreeing sample ends the run and keeps the value. -/
theorem SignalState.debounce_of_agrees {x : SignalState} (k : Nat) {v : Int} (agrees : v = x.value) :
    x.debounce k v = x.accept x.value := if_pos agrees

/-- A disagreeing sample before the `k`-th lengthens the run. -/
theorem SignalState.debounce_of_run_lt {x : SignalState} {k : Nat} {v : Int} (ne : v ≠ x.value) (lt : x.run + 1 < k) :
    x.debounce k v = x.inRun v (x.run + 1) := by
  simp only [SignalState.debounce, if_neg ne, if_pos lt]
  rfl

/-- The `k`-th disagreeing sample is accepted. -/
theorem SignalState.debounce_of_le_run {x : SignalState} {k : Nat} {v : Int} (ne : v ≠ x.value) (le : k ≤ x.run + 1) :
    x.debounce k v = x.accept v := by
  simp only [SignalState.debounce, if_neg ne, if_neg (Nat.not_lt.mpr le)]

/-- A debounced sample leaves the signal FRESH with age 0. -/
theorem SignalState.debounce_is_new (x : SignalState) (k : Nat) (v : Int) :
    (x.debounce k v).quality = .fresh ∧ (x.debounce k v).age = 0 := by
  by_cases agrees : v = x.value
  · rw [debounce_of_agrees k agrees]
    exact ⟨rfl, rfl⟩
  · rcases Nat.lt_or_ge (x.run + 1) k with lt | le
    · rw [debounce_of_run_lt agrees lt]
      exact ⟨rfl, rfl⟩
    · rw [debounce_of_le_run agrees le]
      exact ⟨rfl, rfl⟩

/-- Every sample leaves the signal FRESH with age 0. -/
theorem SignalState.sample_is_new (x : SignalState) (r : SignalRec) (input : Word16) :
    (x.sample r input).quality = .fresh ∧ (x.sample r input).age = 0 := by
  by_cases debounced : r.kind = .switch ∧ x.quality = .fresh
  · rw [sample_eq_debounce debounced.1 debounced.2]
    exact debounce_is_new x _ _
  · rw [sample_eq_accept (not_and.mp debounced)]
    exact ⟨rfl, rfl⟩

/-! ### A run of disagreeing samples -/

section DisagreeingRun

variable {r : SignalRec} {v : Int}

/-- Disagreeing samples that do not complete the run are counted in it and keep the value (R22). -/
theorem SignalState.foldl_sample_counts (kind : r.kind = .switch) {x : SignalState} (fresh : x.quality = .fresh)
    (ne : v ≠ x.value) (inputs : List Word16) (all : ∀ w ∈ inputs, SignalKind.switch.reading w = v)
    (lt : x.run + inputs.length < r.debounce) :
    let y := inputs.foldl (fun x w => x.sample r w) x
    y.quality = .fresh ∧ y.value = x.value ∧ y.run = x.run + inputs.length := by
  induction inputs generalizing x with
  | nil => exact ⟨fresh, rfl, rfl⟩
  | cons w rest ih =>
    obtain ⟨first, later⟩ := List.forall_mem_cons.mp all
    rw [List.length_cons] at lt ⊢
    have counted : x.sample r w = x.inRun v (x.run + 1) := by
      rw [sample_eq_debounce kind fresh, first, debounce_of_run_lt ne (by omega)]
    rw [List.foldl_cons, counted]
    obtain ⟨freshAfter, valueAfter, runAfter⟩ :=
      ih (x := x.inRun v (x.run + 1)) rfl ne later (by simp only [inRun]; omega)
    exact ⟨freshAfter, valueAfter, by rw [runAfter, inRun, Nat.add_assoc, Nat.add_comm 1]⟩

/-- The last of some disagreeing samples is debounced with the others counted in the run. -/
theorem SignalState.foldl_sample_concat (kind : r.kind = .switch) {x : SignalState} (fresh : x.quality = .fresh)
    (ne : v ≠ x.value) (before : List Word16) (last : Word16)
    (all : ∀ w ∈ before ++ [last], SignalKind.switch.reading w = v)
    (le : x.run + (before ++ [last]).length ≤ r.debounce) :
    (before ++ [last]).foldl (fun x w => x.sample r w) x =
      if x.run + (before ++ [last]).length < r.debounce then x.inRun v (x.run + (before ++ [last]).length)
      else x.accept v := by
  rw [List.length_append, List.length_singleton] at le ⊢
  obtain ⟨freshBefore, valueBefore, runBefore⟩ :=
    foldl_sample_counts kind fresh ne before (fun w m => all w (List.mem_append_left _ m)) (by omega)
  rw [← valueBefore] at ne
  rw [List.foldl_append, List.foldl_cons, List.foldl_nil, sample_eq_debounce kind freshBefore, all last (by simp)]
  split
  case isTrue lt =>
    rw [debounce_of_run_lt ne (by omega), runBefore, inRun, valueBefore]
    rfl
  case isFalse full => exact debounce_of_le_run ne (by omega)

/-- An agreeing sample ends a run that has not reached its debounce count, the value kept (R22). -/
theorem SignalState.foldl_sample_then_agrees (kind : r.kind = .switch) {x : SignalState} (fresh : x.quality = .fresh)
    (ne : v ≠ x.value) (inputs : List Word16) (all : ∀ w ∈ inputs, SignalKind.switch.reading w = v)
    (lt : x.run + inputs.length < r.debounce) {w : Word16} (agrees : SignalKind.switch.reading w = x.value) :
    (inputs.foldl (fun x w => x.sample r w) x).sample r w = x.accept x.value := by
  obtain ⟨freshNow, valueNow, -⟩ := foldl_sample_counts kind fresh ne inputs all lt
  rw [sample_eq_debounce kind freshNow, debounce_of_agrees _ (agrees.trans valueNow.symm), valueNow]
  rfl

end DisagreeingRun

/-! ### Update events -/

/-- An update event is raised for exactly the signals whose value or quality differs (R27). -/
theorem mem_changedSignals (old new : Tab SignalState 256) (i : SignalId) :
    i ∈ changedSignals old new ↔
      (new.read i).value ≠ (old.read i).value ∨ (new.read i).quality ≠ (old.read i).quality := by
  simp only [changedSignals, List.mem_map, List.mem_filter, Bool.or_eq_true, bne_iff_ne]
  constructor
  · rintro ⟨p, ⟨inZip, differs⟩, rfl⟩
    rw [(Tab.mem_entries_zip old new p).mp inZip] at differs
    exact differs.imp Ne.symm Ne.symm
  · intro differs
    exact ⟨((i, old.read i), new.read i), ⟨(Tab.mem_entries_zip ..).mpr rfl, differs.imp Ne.symm Ne.symm⟩, rfl⟩

/-- Settles O49: the first part from the one-sample lemmas and the membership in `changedSignals`, the second by
induction on the disagreeing samples. -/
theorem samplesAreAcceptedAndDebounced : Obligations.SamplesAreAcceptedAndDebounced := by
  unfold Obligations.SamplesAreAcceptedAndDebounced
  refine ⟨fun x r input => ⟨fun kind => ?value, fun kind => ?count, fun kind stale => ?switch,
      (x.sample_is_new r input).1, (x.sample_is_new r input).2,
      fun s n values i => mem_changedSignals s.signals (s.sampled n values).signals i⟩,
    fun x r inputs v kind fresh _ run _ bit flips all nonempty => ?_⟩
  case value =>
    rw [SignalState.sample_eq_accept (by simp [kind]), kind]
    rfl
  case count =>
    rw [SignalState.sample_eq_accept (by simp [kind]), kind, SignalKind.reading_count]
    rfl
  case switch =>
    rw [SignalState.sample_eq_accept (fun _ => stale), kind]
    rfl
  have ne : v ≠ x.value := by omega
  obtain ⟨before, last, rfl⟩ := (List.eq_nil_or_concat' inputs).resolve_left nonempty
  have last_counts := SignalState.foldl_sample_concat kind fresh ne before last all
  rw [run, Nat.zero_add] at last_counts
  refine ⟨fun lt => ?below, fun full => ?kth, fun w lt agrees => ?agrees⟩
  case below =>
    rw [last_counts lt.le, if_pos lt]
    rfl
  case kth =>
    rw [last_counts full.le, if_neg full.not_lt]
    rfl
  case agrees => exact SignalState.foldl_sample_then_agrees kind fresh ne _ all (by omega) agrees

end Machine
end Sys2Proof
end

section
/-! PROOFS. The Condition Unit: what each comparison of Table 3-2 says (R42), what a condition says of the signal it
reads (R40, R41, R43), and when a condition set holds (R45, R46). -/

namespace Sys2Proof
namespace Machine

/-! ### The comparisons of Table 3-2 -/

section Comparisons

variable {low high v : Int}

@[simp] theorem Comparison.eq_holds_iff : Comparison.eq.holds low high v = true ↔ v = low := beq_iff_eq

@[simp] theorem Comparison.ne_holds_iff : Comparison.ne.holds low high v = true ↔ v ≠ low := bne_iff_ne

@[simp] theorem Comparison.ge_holds_iff : Comparison.ge.holds low high v = true ↔ low ≤ v := decide_eq_true_iff

@[simp] theorem Comparison.le_holds_iff : Comparison.le.holds low high v = true ↔ v ≤ low := decide_eq_true_iff

@[simp] theorem Comparison.inside_holds_iff :
    Comparison.inside.holds low high v = true ↔ low ≤ v ∧ v ≤ high := by
  simp [Comparison.holds]

@[simp] theorem Comparison.outside_holds_iff :
    Comparison.outside.holds low high v = true ↔ v < low ∨ high < v := by
  simp [Comparison.holds]

end Comparisons

/-! ### Conditions -/

/-- The abs flag compares the magnitude (R43). -/
theorem CondRec.compared_eq (r : CondRec) (v : Int) : r.compared v = if r.abs then |v| else v := by
  rw [compared, Int.abs_eq_natAbs]

/-- A condition holds on a FRESH signal only, and there when its comparison does (R41). -/
theorem CondRec.holdsOn_iff (r : CondRec) (x : SignalState) :
    r.holdsOn x = true ↔
      x.quality = .fresh ∧ r.cmp.holds r.low r.high (if r.abs then |x.value| else x.value) = true := by
  rw [holdsOn, Bool.and_eq_true, SignalState.fresh_iff, compared_eq]

/-- A condition that resolves is that of the signal it resolves to (R40). -/
theorem State.condHolds_of_resolve_eq_some {s : State} {h : Hatch} {c : CondId} {i : SignalId}
    (resolves : (s.image.condition.read c).ref.resolve (s.hatchRec h) = some i) :
    s.condHolds h c = (s.image.condition.read c).holdsOn (s.signal i) := by
  simp only [condHolds, resolves, Option.any_some]

/-- A condition whose role is absent fails (R40). -/
theorem State.condHolds_of_resolve_eq_none {s : State} {h : Hatch} {c : CondId}
    (absent : (s.image.condition.read c).ref.resolve (s.hatchRec h) = none) : s.condHolds h c = false := by
  simp only [condHolds, absent, Option.any_none]

/-! ### Condition sets -/

/-- Set 0 has no conditions (R46). -/
@[simp] theorem TableImage.setOf_zero (im : TableImage) : im.setOf 0 = [] := if_pos rfl

/-- A set other than 0 is its list in the tables. -/
theorem TableImage.setOf_of_ne_zero (im : TableImage) {i : SetId} (ne : i ≠ 0) : im.setOf i = im.condset.read i :=
  if_neg ne

/-- A set holds exactly when each of its conditions does (R45). -/
theorem State.setHolds_iff (s : State) (h : Hatch) (i : SetId) :
    s.setHolds h i = true ↔ ∀ c ∈ s.image.setOf i, s.condHolds h c = true := List.all_eq_true

/-- Set 0 always holds (R46). -/
@[simp] theorem State.setHolds_zero (s : State) (h : Hatch) : s.setHolds h 0 = true := by
  simp [setHolds_iff]

/-- Settles O52: a condition that resolves is its comparison on a FRESH signal, one case per row of Table 3-2; the
sets are their lists. -/
theorem conditionsCompareFreshValues : Obligations.ConditionsCompareFreshValues := by
  unfold Obligations.ConditionsCompareFreshValues
  refine fun s h => ⟨fun c r i read resolves => ?resolved, fun c absent => State.condHolds_of_resolve_eq_none absent,
    fun i ne => ?set, s.setHolds_zero h⟩
  case resolved =>
    subst read
    rw [State.condHolds_of_resolve_eq_some resolves, CondRec.holdsOn_iff]
    refine and_congr_right fun _ => ?_
    cases (s.image.condition.read c).cmp with
    | eq => exact Comparison.eq_holds_iff
    | ne => exact Comparison.ne_holds_iff
    | ge => exact Comparison.ge_holds_iff
    | le => exact Comparison.le_holds_iff
    | inside => exact Comparison.inside_holds_iff
    | outside => exact Comparison.outside_holds_iff
  case set => rw [State.setHolds_iff, TableImage.setOf_of_ne_zero _ ne]

end Machine
end Sys2Proof
end

section
/-! PROOFS. The status byte of the frames the part originates: what each bit says of the states (R93, Table 8-3), and
where the byte stands in a frame (R130). -/

namespace Sys2Proof
namespace Machine

/-! ### Bit sets as bytes -/

/-- Bit `i` of a packed list is its member `i`, clear past the end (R140). -/
theorem testBit_packBits (l : List Bool) (i : Nat) : (packBits l).testBit i = l.getD i false := by
  induction l generalizing i with
  | nil => simp [packBits]
  | cons b l ih =>
    cases i with
    | zero => cases b <;> simp [packBits]
    | succ i =>
      have half : packBits (b :: l) / 2 = packBits l := by
        rw [packBits]
        split <;> omega
      rw [Nat.testBit_succ, half, ih, List.getD_cons_succ]

/-- A byte holds the members 0 to 7 of the list it packs (R140). -/
theorem getLsbD_byte_packBits (l : List Bool) {i : Nat} (lt : i < 8) :
    (byte (packBits l)).getLsbD i = l.getD i false := by
  rw [byte, BitVec.getLsbD_ofNat, decide_eq_true lt, Bool.true_and, testBit_packBits]

/-! ### The states the bits are taken from -/

/-- Some hatch is in one of the states exactly when there is one that is. -/
theorem State.anyHatch_iff (s : State) (p : SeqState → Bool) :
    s.anyHatch p = true ↔ ∃ h, p (s.hatch h).state = true := by
  simp only [anyHatch, List.any_eq_true, Vector.mem_toList_iff, Vector.mem_iff_getElem]
  constructor
  · rintro ⟨_, ⟨i, lt, rfl⟩, holds⟩
    exact ⟨⟨i, lt⟩, holds⟩
  · rintro ⟨h, holds⟩
    exact ⟨s.hatch h, ⟨h.val, h.isLt, rfl⟩, holds⟩

/-- Some hatch is in one given state. -/
theorem State.anyHatch_beq_iff (s : State) (x : SeqState) :
    s.anyHatch (· == x) = true ↔ ∃ h, (s.hatch h).state = x := by
  simp only [anyHatch_iff, beq_iff_eq]

/-- ANY_RUNNING counts three of the six states (R93). -/
theorem SeqState.countsRunning_iff (x : SeqState) :
    x.countsRunning = true ↔ x = .running ∨ x = .stopping ∨ x = .manual := by
  cases x <;> simp [countsRunning]

/-! ### The byte in a frame -/

/-- The status byte is byte 4 of a frame (Table 8-3). -/
theorem Frame.encode_getElem?_four (f : Frame) : f.encode[4]? = some f.status := rfl

/-- Settles O25: each bit is the member of the packed list that stands there, and that member is a test of the states;
a frame of the part's own carries the byte where every frame carries its status. -/
theorem statusByteReportsThePartAsItStands : Obligations.StatusByteReportsThePartAsItStands := by
  unfold Obligations.StatusByteReportsThePartAsItStands
  intro s
  refine ⟨?tripped, ?held, ?running, ?lapse, ?config, ?flags, ?motion, ?storing,
    fun _ _ _ _ _ => Frame.encode_getElem?_four _⟩ <;>
    rw [State.statusByte, getLsbD_byte_packBits _ (by decide)]
  case tripped => exact s.anyHatch_beq_iff .tripped
  case held => exact s.anyHatch_beq_iff .held
  case running => exact (s.anyHatch_iff _).trans (exists_congr fun h => (s.hatch h).state.countsRunning_iff)
  case lapse => exact Iff.rfl
  case config => simp
  case flags => exact bne_iff_ne
  case motion => exact Iff.rfl
  case storing => exact beq_iff_eq

end Machine
end Sys2Proof
end

section
/-! PROOFS. Arrival at the console port: what the C receive queue does with an entry offered to it, and which entry a
run of bytes gives it (R127, R132). -/

namespace Sys2Proof
namespace Machine

/-! ### The C receive queue -/

/-- With room in the queue an entry joins its tail. -/
theorem State.receive_of_lt {s : State} (room : s.cp.rx.length < 8) (e : RxEntry) :
    s.receive e = { s with cp := { s.cp with rx := s.cp.rx ++ [e] } } := if_pos room

/-- A valid frame at a full queue leaves C_OVERRUN behind, and nothing else. -/
theorem State.receive_valid_of_full {s : State} (full : 8 ≤ s.cp.rx.length) (f : Frame) :
    s.receive (.valid f) = s.setFlag .cOverrun := if_neg full.not_gt

/-- An invalid frame at a full queue leaves C_FRAME_ERR behind too. -/
theorem State.receive_invalid_of_full {s : State} (full : 8 ≤ s.cp.rx.length) (bytes : List Byte)
    (r : RejectReason) :
    s.receive (.invalid bytes r) = (s.setFlag .cOverrun).setFlag .cFrameErr := if_neg full.not_gt

/-! ### The entry of a run -/

theorem rxEntryOf_of_valid {run : Run} {f : Frame} (valid : checkRun run = .valid f) :
    rxEntryOf run = .valid f := by
  simp only [rxEntryOf, valid]

/-- An invalid run keeps its first 56 bytes and its error mark (R127). -/
theorem rxEntryOf_of_invalid {run : Run} {r : RejectReason} (invalid : checkRun run = .invalid r) :
    rxEntryOf run = .invalid (run.bytes.take 56) r := by
  simp only [rxEntryOf, invalid, keptBytes]

/-! ### The command -/

@[simp] theorem Run.wellFormed_iff (run : Run) : run.wellFormed = true ↔ run.bytes ≠ [] := by
  simp [Run.wellFormed]

/-- C_FRAME_ARRIVES offers a run that is no urgent frame to the queue. -/
theorem exec_cFrameArrives_of_not_urgent {run : Run} {s : State} (nonempty : run.bytes ≠ [])
    (notUrgent : s.urgentOf run = none) :
    exec (.cFrameArrives run) s = .next (s.receive (rxEntryOf run)) :=
  congrArg Host.Outcome.next (if_pos (by simp [nonempty, notUrgent]))

/-- Settles O19: the command answers the queue's own operation on the run's entry, which splits by the room in the queue
and by what the test of the run found. -/
theorem arrivalJoinsTheReceiveQueue : Obligations.ArrivalJoinsTheReceiveQueue := by
  unfold Obligations.ArrivalJoinsTheReceiveQueue
  intro run s nonempty notUrgent
  refine ⟨_, exec_cFrameArrives_of_not_urgent nonempty notUrgent,
    fun room => ⟨fun f valid => ?joins, fun r invalid => ?joinsMarked⟩,
    fun full => ⟨fun f valid => ?discarded, fun r invalid => ?discardedMarked⟩⟩
  case joins => rw [rxEntryOf_of_valid valid, State.receive_of_lt room]
  case joinsMarked => rw [rxEntryOf_of_invalid invalid, State.receive_of_lt room]
  case discarded => rw [rxEntryOf_of_valid valid, State.receive_valid_of_full full, State.setFlag]
  case discardedMarked =>
    rw [rxEntryOf_of_invalid invalid, State.receive_invalid_of_full full, State.setFlag, State.setFlag]

end Machine
end Sys2Proof
end

section
/-! PROOFS. Start-up: the three resets are one function of the state, and what it leaves in the flag word, the Field Line
Controller and the output image under the image it found (R141, R164, R179). -/

namespace Sys2Proof
namespace Machine

/-! ### The command -/

/-- A reset that is taken: either pin or supply at any time, or an accepted RESET_DEVICE once it is due (R170, R179). -/
theorem exec_eq_startUp {s : State} {straps : Fin 4} {c : Instr}
    (taken : c = .powerUp straps ∨ c = .resetN straps ∨ c = .resetDeviceTaken straps ∧ s.mu.resetPhase = .due) :
    exec c s = .next (s.startUp straps) := by
  obtain rfl | rfl | ⟨rfl, due⟩ := taken
  case inl => rfl
  case inr.inl => rfl
  case inr.inr =>
    change execResetDeviceTaken straps s = _
    simp only [execResetDeviceTaken, due]

/-! ### What start-up leaves -/

/-- Whichever mode start-up chooses, the tables followed are the image it found, or the empty ones (R172, R179). -/
theorem State.startUp_image (s : State) (straps : Fin 4) :
    (s.startUp straps).image = s.mu.store.found.getD .empty := by
  unfold State.startUp
  cases s.mu.store.found <;> rfl

/-- The flag word of a reset holds RESET_OCCURRED, and TABLE_CRC when no image was found (R164). -/
theorem flagIn_resetFlags (imageFound : Bool) (f : Flag) :
    flagIn (resetFlags imageFound) f = true ↔ f = .resetOccurred ∨ f = .tableCrc ∧ imageFound = false := by
  cases imageFound <;> cases f <;> decide

/-- Start-up sets RESET_OCCURRED, and TABLE_CRC when it found no image, and clears every other flag. -/
theorem State.startUp_flag (s : State) (straps : Fin 4) (f : Flag) :
    (s.startUp straps).flag f = true ↔ f = .resetOccurred ∨ f = .tableCrc ∧ s.mu.store.found.isSome = false :=
  flagIn_resetFlags _ f

theorem State.startUp_scan (s : State) (straps : Fin 4) (n : Node) :
    (s.startUp straps).flc.scan.read n =
      { due := ((s.startUp straps).image.node.read n).inMap && ((s.startUp straps).image.node.read n).poll,
        left := none } := by
  rw [startUp_image]
  exact Tab.read_mapAll _ _ n

theorem State.startUp_node (s : State) (straps : Fin 4) (n : Node) :
    (s.startUp straps).node n =
      { state := if ((s.startUp straps).image.node.read n).inMap then .unknown else .absent } := by
  rw [startUp_image]
  exact Tab.read_mapAll _ _ n

theorem State.startUp_outChan (s : State) (straps : Fin 4) (n : Node) (ch : Chan) :
    (s.startUp straps).outChan n ch = { value := (s.startUp straps).image.neutralOf n ch, dirty := false } := by
  rw [startUp_image]
  simp only [outChan, startUp, bootState, NodeRec.neutrals, TableImage.neutralOf, TableImage.chan, Tab.read_mapAll]

theorem State.startUp_refreshLeft (s : State) (straps : Fin 4) (n : Node) :
    (s.startUp straps).oir.refreshLeft.read n = (s.startUp straps).image.global.outputRefresh := by
  rw [startUp_image]
  exact Tab.read_fill 47 _ n

/-- Settles O17: each of the three commands answers the start-up state, whose scan, node records, output image and refresh
timers are tables filled from the image followed, and whose flag word holds none of the field line's three flags. -/
theorem everyResetSetsTheFieldLineAndTheOutputs : Obligations.EveryResetSetsTheFieldLineAndTheOutputs := by
  unfold Obligations.EveryResetSetsTheFieldLineAndTheOutputs
  intro s straps c taken
  have clear (f : Flag) (notReset : f ≠ .resetOccurred) (notTables : f ≠ .tableCrc) :
      (s.startUp straps).flag f = false := by
    simp [← Bool.not_eq_true, s.startUp_flag, notReset, notTables]
  exact ⟨s.startUp straps, exec_eq_startUp taken, rfl, rfl, rfl, s.startUp_scan straps, rfl, rfl, rfl,
    s.startUp_node straps, clear _ nofun nofun, clear _ nofun nofun, clear _ nofun nofun,
    s.startUp_outChan straps, s.startUp_refreshLeft straps⟩

end Machine
end Sys2Proof
end

section
/-! PROOFS. The Traffic Filter: which line of Table 10-2 judges a write pair (R156), what the clamp does to a value, and
what is left of the console's frame once its pairs are clamped (R157). -/

namespace Sys2Proof
namespace Machine

/-! ### Fields in bytes -/

/-- A two-byte field is two bytes that read as its number, reduced to 16 bits (R140). -/
theorem be16n_reads_back (v : Nat) : ∃ hi lo, be16n v = [hi, lo] ∧ num16 hi lo = v % 65536 := by
  refine ⟨_, _, rfl, ?_⟩
  have whole (w : Word16) : w.extractLsb' 8 8 ++ w.extractLsb' 0 8 = w :=
    (BitVec.extractLsb'_append_extractLsb'_eq_extractLsb' rfl).trans BitVec.extractLsb'_eq_self
  rw [num16, word16, whole, BitVec.toNat_ofNat]

/-- A two-byte field read and written out is the bytes it was read from (R140). -/
@[simp] theorem be16n_num16 (hi lo : Byte) : be16n (num16 hi lo) = [hi, lo] := by
  rw [be16n, num16, BitVec.ofNat_toNat, BitVec.setWidth_eq, be16, word16, BitVec.extractLsb'_append_eq_left,
    BitVec.extractLsb'_append_eq_right]

theorem num16_lt (hi lo : Byte) : num16 hi lo < 65536 := (word16 hi lo).isLt

/-- A byte holds a number below 256 (R140). -/
theorem byte_eq_iff {i : Nat} (lt : i < 256) {b : Byte} : byte i = b ↔ b.toNat = i := by
  rw [byte, eq_comm, ← BitVec.toNat_inj, BitVec.toNat_ofNat, Nat.mod_eq_of_lt lt]

/-- A byte reads as the index it holds, when there is one (R140). -/
theorem below_toNat_eq_some_iff {n : Nat} (le : n ≤ 256) {b : Byte} {i : Fin n} :
    below n b.toNat = some i ↔ b = byte i.val := by
  rw [eq_comm (a := b), byte_eq_iff (i.isLt.trans_le le), below]
  split
  case isTrue lt => rw [Option.some_inj, Fin.ext_iff]
  case isFalse ge => exact ⟨nofun, fun eq => absurd (eq ▸ i.isLt) ge⟩

/-! ### Write pairs in bytes -/

@[simp] theorem encodePairs_nil : encodePairs [] = [] := rfl

theorem encodePairs_cons (p : Chan × Nat) (l : List (Chan × Nat)) :
    encodePairs (p :: l) = byte p.1.val :: (be16n p.2 ++ encodePairs l) := rfl

theorem length_encodePairs (l : List (Chan × Nat)) : (encodePairs l).length = 3 * l.length := by
  simp [encodePairs, be16n, be16, List.length_flatMap, Nat.mul_comm]

/-- Three bytes read as a pair of channel and value, and what follows as the pairs after it (Table 8-4). -/
theorem parsePairs_cons_eq_some_iff {c v1 v0 : Byte} {rest : List Byte} {l : List (Chan × Nat)} :
    parsePairs (c :: v1 :: v0 :: rest) = some l ↔
      ∃ ch r, c = byte ch.val ∧ parsePairs rest = some r ∧ l = (ch, num16 v1 v0) :: r := by
  simp only [parsePairs, Option.bind_eq_bind, Option.bind_eq_some_iff, Option.some_inj,
    below_toNat_eq_some_iff (show 8 ≤ 256 by decide), exists_and_left, eq_comm (b := l)]

/-- What reads as pairs is exactly the bytes of pairs whose values are two-byte fields (Table 8-4). -/
theorem parsePairs_eq_some_iff {bytes : List Byte} {l : List (Chan × Nat)} :
    parsePairs bytes = some l ↔ bytes = encodePairs l ∧ ∀ p ∈ l, p.2 < 65536 := by
  constructor
  · induction bytes using parsePairs.induct generalizing l with
    | case1 =>
      rintro ⟨⟩
      simp
    | case2 c v1 v0 rest ih =>
      rw [parsePairs_cons_eq_some_iff]
      rintro ⟨ch, r, rfl, read, rfl⟩
      obtain ⟨rfl, fit⟩ := ih read
      exact ⟨by simp [encodePairs_cons], List.forall_mem_cons.mpr ⟨num16_lt v1 v0, fit⟩⟩
    | case3 bytes notEmpty notPair =>
      rw [parsePairs]
      · nofun
      · exact notEmpty
      · exact notPair
  · rintro ⟨rfl, fit⟩
    induction l with
    | nil => rfl
    | cons p l ih =>
      obtain ⟨valueFits, restFit⟩ := List.forall_mem_cons.mp fit
      obtain ⟨hi, lo, field, value⟩ := be16n_reads_back p.2
      rw [Nat.mod_eq_of_lt valueFits] at value
      rw [encodePairs_cons, field]
      exact parsePairs_cons_eq_some_iff.mpr ⟨p.1, l, rfl, ih restFit, by rw [value]⟩

/-- Pairs a WRITE_OUTPUTS request can carry: 1 to 8, each value a two-byte field (Table 8-4). -/
def PairsFit (l : List (Chan × Nat)) : Prop :=
  1 ≤ l.length ∧ l.length ≤ 8 ∧ ∀ p ∈ l, p.2 < 65536

/-- A pair count and as many pairs are read from exactly the bytes that spell them out (Table 8-4). -/
theorem parseCounted_eq_some_iff {bytes : List Byte} {l : List (Chan × Nat)} :
    parseCounted bytes = some l ↔ bytes = byte l.length :: encodePairs l ∧ PairsFit l := by
  cases bytes with
  | nil => simp [parseCounted]
  | cons p rest =>
    simp only [parseCounted, Option.ite_none_right_eq_some, parsePairs_eq_some_iff, List.cons.injEq, PairsFit]
    constructor
    · rintro ⟨⟨pos, le, count⟩, rfl, fit⟩
      have len : p.toNat = l.length := by rw [length_encodePairs] at count; omega
      exact ⟨⟨((byte_eq_iff (by omega)).mpr len).symm, rfl⟩, by omega, by omega, fit⟩
    · rintro ⟨⟨rfl, rfl⟩, pos, le, fit⟩
      have len : (byte l.length).toNat = l.length := (byte_eq_iff (by omega)).mp rfl
      exact ⟨⟨by omega, by omega, by rw [len, length_encodePairs]⟩, rfl, fit⟩

/-- The payloads that read as a WRITE_OUTPUTS request are exactly those the request is written as (Table 8-4). -/
theorem parseFieldReq_eq_writeOutputs_iff {bytes : List Byte} {l : List (Chan × Nat)} :
    parseFieldReq bytes = some (.writeOutputs l) ↔ bytes = (FieldReq.writeOutputs l).payload ∧ PairsFit l := by
  cases bytes with
  | nil => simp [parseFieldReq, FieldReq.payload]
  | cons f rest =>
    rw [FieldReq.payload, List.cons.injEq, and_assoc, ← parseCounted_eq_some_iff, parseFieldReq]
    by_cases isWrite : f = 2#8
    · simp [isWrite]
    · simp only [isWrite, if_false, false_and, iff_false]
      split_ifs <;> nofun

/-! ### The lines of Table 10-2 -/

/-- The device modes that block a write to a GUARDED channel (line 3 of Table 10-2). -/
theorem Mode.blocksGuarded_iff (m : Mode) : m.blocksGuarded = true ↔ m = .config ∨ m = .storing := by
  cases m <;> simp [blocksGuarded]

theorem State.blockReason_of_owned {s : State} {n : Node} {ch : Chan} (owned : (s.image.chan n ch).cls = .owned)
    (c : Console) : s.blockReason n c ch = some .owned := by
  simp only [blockReason, owned]

theorem State.blockReason_of_free {s : State} {n : Node} {ch : Chan} (free : (s.image.chan n ch).cls = .free)
    (c : Console) : s.blockReason n c ch = none := by
  simp only [blockReason, free]

/-- A GUARDED channel is judged by lines 3 to 8 of Table 10-2, in order. -/
theorem State.blockReason_of_guarded {s : State} {n : Node} {ch : Chan}
    (guarded : (s.image.chan n ch).cls = .guarded) (c : Console) :
    s.blockReason n c ch =
      if s.mu.mode = .config ∨ s.mu.mode = .storing then some .mode
      else if (s.hatch (s.image.chan n ch).hatch).state ≠ .manual then some .notManual
      else if (s.hatch (s.image.chan n ch).hatch).owner ≠ some c then some .notOwner
      else if (s.window (s.image.chan n ch).hatch).isLive = false then some .holdLapsed
      else if s.setHolds (s.image.chan n ch).hatch (s.image.chan n ch).permit = false then some .permitFailed
      else none := by
  simp only [blockReason, guarded, Mode.blocksGuarded_iff, Bool.not_eq_true']

theorem State.firstBlocked_eq_none_iff (s : State) (n : Node) (c : Console) (pairs : List (Chan × Nat)) :
    s.firstBlocked n c pairs = none ↔ ∀ p ∈ pairs, s.blockReason n c p.1 = none := by
  simp only [firstBlocked, List.findSome?_eq_none_iff, Option.map_eq_none_iff]

/-- The first blocked pair of a frame is the first in frame order that has a reason (R156). -/
theorem State.firstBlocked_eq_some_iff (s : State) (n : Node) (c : Console) (pairs : List (Chan × Nat)) (ch : Chan)
    (reason : BlockReason) :
    s.firstBlocked n c pairs = some (ch, reason) ↔
      ∃ before p after, pairs = before ++ p :: after ∧ p.1 = ch ∧ s.blockReason n c ch = some reason ∧
        ∀ x ∈ before, s.blockReason n c x.1 = none := by
  have blocked (p : Chan × Nat) :
      (s.blockReason n c p.1).map (fun r => (p.1, r)) = some (ch, reason) ↔
        p.1 = ch ∧ s.blockReason n c ch = some reason := by
    simp only [Option.map_eq_some_iff, Prod.mk.injEq]
    constructor
    · rintro ⟨r, judged, rfl, rfl⟩
      exact ⟨rfl, judged⟩
    · rintro ⟨rfl, judged⟩
      exact ⟨reason, judged, rfl, rfl⟩
  simp only [firstBlocked, List.findSome?_eq_some_iff, Option.map_eq_none_iff, blocked, and_assoc]

/-! ### The clamp -/

theorem clampValue_of_proportional {r : ChanRec} (kind : r.kind = .proportional) (v : Nat) :
    clampValue r v = max (2048 - r.span) (min v (2048 + r.span)) := by
  simp only [clampValue, kind]

theorem clampValue_of_binary {r : ChanRec} (kind : r.kind = .binary) (v : Nat) :
    clampValue r v = if v ≤ 2 then v else 0 := by
  simp only [clampValue, kind]

/-- The clamp of a two-byte value is a two-byte value, whatever the span. -/
theorem clampValue_lt {v : Nat} (r : ChanRec) (fits : v < 65536) : clampValue r v < 65536 := by
  cases kind : r.kind with
  | proportional => rw [clampValue_of_proportional kind]; omega
  | binary => rw [clampValue_of_binary kind]; split <;> omega

theorem TableImage.clampPair_of_ne_guarded {im : TableImage} {n : Node} {p : Chan × Nat}
    (other : (im.chan n p.1).cls ≠ .guarded) : im.clampPair n p = p := if_neg other

theorem TableImage.clampPair_of_guarded {im : TableImage} {n : Node} {p : Chan × Nat}
    (guarded : (im.chan n p.1).cls = .guarded) :
    im.clampPair n p = (p.1, clampValue (im.chan n p.1) p.2) := if_pos guarded

/-- A GUARDED pair is left as written exactly when the clamp leaves its value. -/
theorem TableImage.clampPair_eq_self_iff {im : TableImage} {n : Node} {p : Chan × Nat}
    (guarded : (im.chan n p.1).cls = .guarded) :
    im.clampPair n p = p ↔ clampValue (im.chan n p.1) p.2 = p.2 := by
  rw [clampPair_of_guarded guarded, Prod.ext_iff, eq_self, true_and]

theorem TableImage.clampPair_lt (im : TableImage) (n : Node) {p : Chan × Nat} (fits : p.2 < 65536) :
    (im.clampPair n p).2 < 65536 := by
  by_cases guarded : (im.chan n p.1).cls = .guarded
  case pos => rw [clampPair_of_guarded guarded]; exact clampValue_lt _ fits
  case neg => rw [clampPair_of_ne_guarded guarded]; exact fits

/-- Clamped pairs fit in the request that carried them. -/
theorem TableImage.pairsFit_map_clampPair (im : TableImage) (n : Node) {pairs : List (Chan × Nat)}
    (fits : PairsFit pairs) : PairsFit (pairs.map (im.clampPair n)) := by
  obtain ⟨pos, le, small⟩ := fits
  refine ⟨by rwa [List.length_map], by rwa [List.length_map], List.forall_mem_map.mpr fun p mem => ?_⟩
  exact im.clampPair_lt n (small p mem)

/-! ### The clamped frame -/

theorem FieldReq.length_payload_writeOutputs (l : List (Chan × Nat)) :
    (FieldReq.writeOutputs l).payload.length = 3 * l.length + 2 := by
  rw [payload, List.length_cons, List.length_cons, length_encodePairs]

theorem TableImage.clampFrame_payload (im : TableImage) (n : Node) (f : Frame) (pairs : List (Chan × Nat)) :
    (im.clampFrame n f pairs).payload = (FieldReq.writeOutputs (pairs.map (im.clampPair n))).payload := rfl

/-- The envelope is kept as the console sent it (R157). -/
theorem TableImage.clampFrame_with_payload (im : TableImage) (n : Node) (f : Frame) (pairs : List (Chan × Nat)) :
    { im.clampFrame n f pairs with payload := f.payload } = f := rfl

/-- A frame whose pairs the clamp leaves is forwarded as it came. -/
theorem TableImage.clampFrame_eq_self {im : TableImage} {n : Node} {f : Frame} {pairs : List (Chan × Nat)}
    (sent : f.payload = (FieldReq.writeOutputs pairs).payload) (left : pairs.map (im.clampPair n) = pairs) :
    im.clampFrame n f pairs = f := by
  rw [clampFrame, left, ← sent]

/-- Settles O41: the lines of Table 10-2 are the branches of the judgement in their order, the clamp is two bounds or
one test, and a clamped frame is its pairs written out where the console's own stood. -/
theorem writePairsAreJudgedAndClamped : Obligations.WritePairsAreJudgedAndClamped := by
  unfold Obligations.WritePairsAreJudgedAndClamped
  refine ⟨fun s n c ch => ⟨fun owned => s.blockReason_of_owned owned c, fun free => s.blockReason_of_free free c,
      fun guarded => ?lines, fun pairs => ⟨s.firstBlocked_eq_none_iff n c pairs, s.firstBlocked_eq_some_iff n c pairs⟩⟩,
    fun im n p => ⟨TableImage.clampPair_of_ne_guarded, fun guarded => ?clamp, fun f pairs written => ?frame⟩⟩
  case lines =>
    -- `lineN` is the judgement once no line before N applies; the hypotheses then decide line N.
    have line3 := s.blockReason_of_guarded guarded c
    refine ⟨fun mode => line3.trans (if_pos mode), fun mode => ?_⟩
    have line4 := line3.trans (if_neg (by rcases mode with mode | mode <;> simp [mode]))
    refine ⟨fun state => line4.trans (if_pos state), fun state => ?_⟩
    have line5 := line4.trans (if_neg (not_not.mpr state))
    refine ⟨fun owner => line5.trans (if_pos owner), fun owner => ?_⟩
    have line6 := line5.trans (if_neg (not_not.mpr owner))
    refine ⟨fun window => line6.trans (if_pos ?_), fun left live => ?_⟩
    · rcases window with window | window <;> rw [window, Window.isLive]
    have line7 := line6.trans (if_neg (by rw [live, Window.isLive]; decide))
    exact ⟨fun fails => line7.trans (if_pos fails), fun holds => line7.trans (if_neg (by rw [holds]; decide))⟩
  case clamp =>
    rw [TableImage.clampPair_eq_self_iff guarded, TableImage.clampPair_of_guarded guarded]
    refine ⟨rfl, fun kind => ?proportional, fun kind => ?binary⟩
    case proportional =>
      rw [clampValue_of_proportional kind]
      refine ⟨?_, ?_, ?_, ?_⟩ <;> intros <;> omega
    case binary =>
      rw [clampValue_of_binary kind]
      exact ⟨fun small => if_pos small, fun large => if_neg large.not_ge⟩
  case frame =>
    obtain ⟨sent, fits⟩ := parseFieldReq_eq_writeOutputs_iff.mp written
    refine ⟨parseFieldReq_eq_writeOutputs_iff.mpr ⟨im.clampFrame_payload n f pairs, im.pairsFit_map_clampPair n fits⟩,
      im.clampFrame_with_payload n f pairs, ?_, im.clampFrame_eq_self sent⟩
    rw [im.clampFrame_payload, sent, FieldReq.length_payload_writeOutputs, FieldReq.length_payload_writeOutputs,
      List.length_map]

end Machine
end Sys2Proof
end
